-- ==== Sys2Proof/Word.lean ====
section
/-! DEFINITION. The word types of the block: bytes, bus words and addresses (R5), and the two wire messages (R90). -/

namespace Sys2Proof

/-- The addressable unit, BYTE_W = 8 bits (R5). -/
abbrev Byte := BitVec 8

/-- The payload of a word operation, WORD_W = 16 bits (R5). -/
abbrev Word := BitVec 16

/-- A bus address, ADDR_W = 16 bits (R5, R60). -/
abbrev Addr := BitVec 16

/-- A request on the wire: 34 bits (R91). -/
abbrev ReqWord := BitVec 34

/-- A response on the wire: 19 bits (R93). -/
abbrev RspWord := BitVec 19

end Sys2Proof
end

