-- ==== Sys2Proof/Syntax.lean ====
section
/-! DEFINITION. The four bus operations, one constructor per row of the opcode table (R92). The fields are the ones the
operation uses: a read carries no payload and a byte write carries eight bits, because requests that differ only in
ignored payload bits are the same request (R91, R104 b). -/

namespace Sys2Proof

/-- A bus operation with its operands (R146 to R149). The port is not part of the word (R91). -/
inductive Instr where
  /-- RB, ReadByte (R146). -/
  | rb (addr : Addr)
  /-- RW, ReadWord (R147). -/
  | rw (addr : Addr)
  /-- WB, WriteByte (R148). -/
  | wb (addr : Addr) (value : Byte)
  /-- WW, WriteWord (R149). -/
  | ww (addr : Addr) (value : Word)
  deriving DecidableEq, Repr

end Sys2Proof
end

