-- ==== Sys2Proof/WellFormed.lean ====
section
/-! DEFINITION. The two checks a request can fail. `ReqFits`: a number is a REQ word at all (34 bits, R91).
`Instr.wellFormed`: the request is not the malformed one of R145. Every other constraint on an instruction is held by the
types of its fields: all four operation codes are defined (R92) and no field has a reserved value (R104). -/

namespace Sys2Proof

/-- A number is a REQ word when it has no bit above bit 33 (R91). -/
def ReqFits (n : Nat) : Bool := n < 2 ^ 34

/-- A request is malformed exactly when it is a word operation at 0xFFFF (R145); every other one is well-formed. -/
def Instr.wellFormed : Instr → Bool
  | .rb _ => true
  | .rw a => a ≠ 0xFFFF#16
  | .wb _ _ => true
  | .ww a _ => a ≠ 0xFFFF#16

end Sys2Proof
end

