-- ==== Sys2Proof/Decode.lean ====
section
/-! DEFINITION. The decoder of REQ words and, after it, the encoder (R91, R92, R104). -/

namespace Sys2Proof

/-- One row of the opcode table over the 34 bits of a REQ word (R92). -/
structure OpRow where
  mnemonic : String
  pattern : ReqWord
  mask : ReqWord
  deriving DecidableEq, Repr

/-- The table of R92, in its order. -/
def opRows : List OpRow :=
  [ ⟨"RB", 0x000000000#34, 0x300000000#34⟩,
    ⟨"RW", 0x100000000#34, 0x300000000#34⟩,
    ⟨"WB", 0x200000000#34, 0x300000000#34⟩,
    ⟨"WW", 0x300000000#34, 0x300000000#34⟩ ]

/-- A REQ word belongs to a row when its masked bits are the row's pattern. -/
def OpRow.fits (r : OpRow) (w : ReqWord) : Bool := w &&& r.mask = r.pattern

/-- Field `op`, bits 33:32 of a REQ word (R91). -/
def reqOp (w : ReqWord) : BitVec 2 := w.extractLsb' 32 2

/-- Field `addr`, bits 31:16 of a REQ word (R91). -/
def reqAddr (w : ReqWord) : Addr := w.extractLsb' 16 16

/-- Field `wdata`, bits 15:0 of a REQ word (R91). -/
def reqData (w : ReqWord) : Word := w.extractLsb' 0 16

/-- A REQ word put together from its three fields (R91). -/
def reqWord (op : BitVec 2) (addr : Addr) (wdata : Word) : ReqWord := op ++ addr ++ wdata

/-- The byte a WriteByte carries: `wdata[7:0]` (R91, R105). -/
def byteOf (wdata : Word) : Byte := wdata.setWidth 8

/-- The decoder: total, since all four values of `op` are defined (R92, R104). The payload bits an operation ignores are
dropped. -/
def decode (w : ReqWord) : Instr :=
  match (reqOp w).toNat with
  | 0 => .rb (reqAddr w)
  | 1 => .rw (reqAddr w)
  | 2 => .wb (reqAddr w) (byteOf (reqData w))
  | _ => .ww (reqAddr w) (reqData w)

/-- Why a number is not read as a request. -/
inductive DecodeError where
  /-- The number has a bit above bit 33: it is not a REQ word (R91). -/
  | widerThanReq
  deriving DecidableEq, Repr

/-- The decoder on any number: it rejects what is not a 34-bit word, by name. -/
def decodeNat (n : Nat) : Except DecodeError Instr :=
  if ReqFits n then .ok (decode (BitVec.ofNat 34 n)) else .error .widerThanReq

/-- The table's own numbering is the REQ numbering: one word, bit 0 least significant (R7, R91). -/
def decodeTableWord (nbits w : Nat) : Option Instr :=
  match decodeNat (w % 2 ^ nbits) with
  | .ok i => some i
  | .error _ => none

/-- The operation code of an instruction (R92). -/
def Instr.opCode : Instr → BitVec 2
  | .rb _ => 0b00#2
  | .rw _ => 0b01#2
  | .wb _ _ => 0b10#2
  | .ww _ _ => 0b11#2

/-- The `addr` field an instruction is sent with. -/
def Instr.addrField : Instr → Addr
  | .rb a => a
  | .rw a => a
  | .wb a _ => a
  | .ww a _ => a

/-- The `wdata` field an instruction is sent with; ignored bits are sent as zero. -/
def Instr.dataField : Instr → Word
  | .rb _ => 0
  | .rw _ => 0
  | .wb _ v => v.setWidth 16
  | .ww _ w => w

/-- The encoder: the REQ word of an instruction (R91, R92). -/
def encode (i : Instr) : ReqWord := reqWord i.opCode i.addrField i.dataField

end Sys2Proof
end

