-- ==== Sys2Proof/Machine/Types.lean ====
section
/-! DEFINITION. The types the state is made of, in the spec's own names. -/

namespace Sys2Proof.Machine

/-- The two requester ports: P for the processor actor, G for the graphics actor (R140). -/
inductive Port where
  | portP
  | portG
  deriving DecidableEq, Repr, Inhabited

/-- The ModeTimer's modes, in the order of their codes (R100). -/
inductive Mode where
  | oamScan
  | pixelTransfer
  | hBlank
  | vBlank
  deriving DecidableEq, Repr, Inhabited

/-- The fetcher's states (R102). -/
inductive FState where
  | resolve
  | low
  | high
  | enq
  deriving DecidableEq, Repr, Inhabited

/-- The source tag of a FIFO slot or an output pixel; code 3 is reserved and has no constructor (R101, R104 f). -/
inductive Src where
  | bg
  | spr0
  | spr1
  deriving DecidableEq, Repr, Inhabited

/-- Response statuses (R94). -/
inductive Status where
  | okData
  | okNoData
  | memError
  | malformed
  deriving DecidableEq, Repr, Inhabited

/-- A response: status, the unsupported signal, and the data field (R93). -/
structure Rsp where
  status : Status
  unsup : Bool
  data : Word
  deriving DecidableEq, Repr, Inhabited

/-- Fatal causes (R95); the reserved codes 6 and 7 have no constructor. -/
inductive FatalCause where
  | noCause
  | malformedRequest
  | channelSevered
  | timingLine
  | timingCounter
  | overlayEmptySlot
  deriving DecidableEq, Repr, Inhabited

/-- The colour names (R99). -/
inductive Shade where
  | white
  | lightGray
  | darkGray
  | black
  deriving DecidableEq, Repr, Inhabited

/-- The eight storage arrays of AddressMap (R24). -/
inductive Arr where
  | boot
  | rom0
  | rom1
  | vram
  | eram
  | wram
  | oam
  | zram
  deriving DecidableEq, Repr, Inhabited

/-- One storage array: (index, byte) pairs, indices rising, no listed byte 0x00. An unlisted index reads 0x00, the
default of RAM_INIT (R6, R24; log entry 3). -/
abbrev Memory := List Host.Cell

/-- The eight arrays AddressMap owns (R24). -/
structure Storage where
  boot : Memory := []
  rom0 : Memory := []
  rom1 : Memory := []
  vram : Memory := []
  eram : Memory := []
  wram : Memory := []
  oam : Memory := []
  zram : Memory := []
  deriving DecidableEq, Repr, Inhabited

/-- The eleven regions of the decode ladder (R61). -/
inductive Region where
  | boot
  | rom0
  | rom1
  | video
  | externalRam
  | workRam
  | workShadow
  | spriteMemory
  | zeroSink
  | ioSink
  | zeroPage
  deriving DecidableEq, Repr, Inhabited

/-- A port's request latch (R26): the REQ fields of the request the port is blocked on, and its arrival stamp. -/
structure Latch where
  valid : Bool := false
  op : BitVec 2 := 0
  addr : Addr := 0
  wdata : Word := 0
  stamp : Nat := 0
  deriving DecidableEq, Repr, Inhabited

/-- A sprite record: four bytes as they stand in attribute memory (R96). -/
structure SpriteRec where
  y : Byte := 0
  x : Byte := 0
  tile : Byte := 0
  flags : Byte := 0
  deriving DecidableEq, Repr, Inhabited

/-- A pixel FIFO slot (R31, R101). -/
structure Slot where
  valid : Bool := false
  src : Src := .bg
  code : BitVec 2 := 0
  deriving DecidableEq, Repr, Inhabited

/-- An output pixel: a popped slot without its valid bit (R103). -/
structure Pixel where
  src : Src := .bg
  code : BitVec 2 := 0
  deriving DecidableEq, Repr, Inhabited

/-- The pixel every cell of `linebuf` and `fb` holds after reset, {BG, 0} (R32). -/
def blankPixel : Pixel := {}

/-- A row of 160 pixels: (column, pixel) pairs, columns rising, no listed pixel blank. An unlisted column is blank. -/
abbrev Line := List (Nat × Pixel)

/-- The decoded row words of all tiles (R28): row r of tile t stands at index 8t + r; an unlisted row is 0x0000. -/
abbrev TileRows := List (Nat × Word)

/-- A one-tick output event to the host (R178, R179). -/
inductive Strobe where
  /-- line_done(line, pixels): 160 RGBA quadruplets of 32 bits (R178). -/
  | lineDone (line : BitVec 8) (pixels : List (BitVec 32))
  /-- frame_done() (R179). -/
  | frameDone
  deriving DecidableEq, Repr, Inhabited

/-- What the driver may do next (R9, R141, R144, R152, R270, R273 to R279). -/
inductive Move where
  /-- A request word arrives on a port (R141). -/
  | submit (p : Port) (w : ReqWord)
  /-- Two request words arrive at the same instant (R143). -/
  | submitBoth (wP wG : ReqWord)
  /-- The arbiter services the head of the queue (R144). -/
  | service
  /-- A whole bus transaction: submit, service, response (R152). -/
  | transact (p : Port) (w : ReqWord)
  /-- One graphics tick (R170). -/
  | tick
  /-- Host event (R273). -/
  | reset
  /-- Host event (R274). -/
  | loadBoot (bytes : List Byte)
  /-- Host event (R275). -/
  | loadRom (bytes : List Byte)
  /-- Host event (R277). -/
  | setInBoot (b : Bool)
  /-- Host event (R278). -/
  | tileReset
  /-- Host event (R279). -/
  | sever
  deriving DecidableEq, Repr, Inhabited

end Sys2Proof.Machine
end

