-- ==== Sys2Proof/Config.lean ====
section
/-! DEFINITION. What an implementation fixes (R6) and the free values. The open parameters of R6 are plain data that State
holds, so a statement about every state is a statement about every configuration; the three without a default are
constants with no body, of which nothing can be proved. -/

namespace Sys2Proof

open Sys2Proof.Machine

/-- SHADE_TABLE, one colour name per pixel code (R6, R99). The default is the one 90_conflicts.md C1 adopts. -/
structure ShadeTable where
  code0 : Shade := .black
  code1 : Shade := .lightGray
  code2 : Shade := .darkGray
  code3 : Shade := .white
  deriving DecidableEq, Repr, Inhabited

/-- The open parameters of R6 that have a default. A parameter that is a function is held as the list of points where it
differs from its default; any function on its finite domain is such a list. -/
structure Config where
  /-- BOOT_IMAGE; the host delivers it with load_boot (R274). -/
  bootImage : Option (List Byte) := none
  /-- ROM_IMAGE; the host delivers it with load_rom (R275). -/
  romImage : List Byte := []
  /-- BOOT_PRESENT, the reset value of `in_boot`: true iff a boot image is given, unless set otherwise. -/
  bootPresent : Bool := bootImage.isSome
  /-- RAM_INIT, the reset content of every cell. -/
  ramInit : Storage := {}
  /-- IO_READ_DEFAULT where it is not 0x00: (address minus 0xFF00, byte). -/
  ioRead : List (Nat × Byte) := []
  /-- STRICT_UNSUPPORTED. -/
  strict : Bool := false
  /-- OAM_LOCK_MODES. -/
  oamLockModes : List Mode := [.oamScan, .pixelTransfer]
  /-- BG_MAP_ADDR where it differs from its default formula: (32 * line + fetch_x, address). -/
  bgMap : List (Nat × Addr) := []
  /-- BG_DATA_ADDR where it differs from its default formula: (256 * tile_no + line, address). -/
  bgData : List (Nat × Addr) := []
  /-- SHADE_TABLE. -/
  shades : ShadeTable := {}
  deriving DecidableEq, Repr, Inhabited

/-- The configuration of R6's defaults. -/
def Config.default : Config := {}

/-- RGBA_OF, an open parameter with no default (R6, R103): a free value (log entry 9). -/
opaque Config.rgbaOf : Src → BitVec 2 → BitVec 32

/-- The driver's schedule where no move has been chosen for it (R270, U14): a free value (log entry 1). -/
opaque Config.schedule : Nat → Move

/-- TIE_BREAK (R143, U13): which of two requests that arrive at the same instant is first. A free value (log entry 2). -/
opaque Config.tieBreak : Nat → Port

end Sys2Proof
end

