-- ==== Sys2Proof/Machine/State.lean ====
section
/-! DEFINITION. The whole state of the block (10_state.md), by component, and its reset value (R35, R320). -/

namespace Sys2Proof.Machine

/-- BusArbiter state (R26), with the model's own output and bookkeeping fields. -/
structure Arbiter where
  reqP : Latch := {}
  reqG : Latch := {}
  /-- The pending ports in arrival order. -/
  queue : List Port := []
  alive : Bool := true
  fatal : Bool := false
  cause : FatalCause := .noCause
  /-- MODEL: the port in whose service an operation is executed (R140; log entry 5). -/
  port : Port := .portP
  /-- MODEL: the stamp the next submit takes (R26; log entry 6). -/
  nextStamp : Nat := 0
  /-- MODEL: the response delivered on port P's reply channel by the last step (R151, R280; log entry 4). -/
  replyP : Option Rsp := none
  /-- MODEL: the response delivered on port G's reply channel by the last step (log entry 4). -/
  replyG : Option Rsp := none
  deriving DecidableEq, Repr

/-- ModeTimer state (R27). -/
structure Timer where
  mode : Mode := .oamScan
  counter : BitVec 9 := 0
  line : BitVec 8 := 0
  deriving DecidableEq, Repr

/-- SpriteTable state (R29). `vis_count` is the length of `vis`. -/
structure SpriteTable where
  recs : Vector SpriteRec 40 := Vector.replicate 40 {}
  consumed : Vector Bool 40 := Vector.replicate 40 false
  vis : List (Fin 40) := []
  deriving DecidableEq, Repr

/-- PixelPipeline state (R30, R31, R32). -/
structure Pipeline where
  fstate : FState := .resolve
  phase : Bool := false
  fetchX : BitVec 5 := 0
  tileNo : Byte := 0
  byte0 : Byte := 0
  byte1 : Byte := 0
  fifo : Vector Slot 16 := Vector.replicate 16 {}
  count : BitVec 5 := 0
  outCol : BitVec 8 := 0
  linebuf : Line := []
  deriving DecidableEq, Repr

/-- The state. -/
structure State where
  /-- The configuration, fixed for a run (R6, R23). -/
  cfg : Config := {}
  /-- The eight storage arrays (R24). -/
  mem : Storage := {}
  /-- The boot overlay flag (R25). -/
  inBoot : Bool := false
  arb : Arbiter := {}
  timer : Timer := {}
  /-- The tile cache (R28). -/
  tile : TileRows := []
  sprites : SpriteTable := {}
  pipe : Pipeline := {}
  /-- The frame buffer, 144 lines (R32). -/
  fb : Vector Line 144 := Vector.replicate 144 []
  /-- MODEL: the strobes emitted by the last step (R178, R179; log entry 4). -/
  strobes : List Strobe := []
  /-- MODEL: the moves the driver has already chosen, next first (R270; log entry 1). -/
  moves : List Move := []
  /-- MODEL: how many free values have been drawn (log entries 1 and 2). -/
  draws : Nat := 0
  deriving DecidableEq, Repr

/-- Why the machine stops. None of these is a fault of R291: raising Fatal is a next state with the latch set. -/
inductive Fault where
  /-- Raised by every operation and every move but reset while `fatal` is set: no step is enabled (R291, R155, U20). Safe:
  the spec's machine is stuck too. -/
  | fatalLatched
  /-- Raised by a submit on a port whose request is outstanding, and by a tick while any port's is: the step is not enabled
  (R141, R142, R158, U19). Safe. -/
  | portBlocked (p : Port)
  /-- Raised by a service with an empty queue: the step is not enabled (R144). Safe. -/
  | nothingPending
  deriving DecidableEq, Repr

/-- Why the model gives no meaning. -/
inductive Refusal where
  /-- An instruction whose meaning has not been written. Safe. -/
  | notModelled (mnemonic : String)
  /-- Raised by the overlay of a sprite that is not visible on the current line, whose tile row R241 leaves without a value;
  no run reaches such a state (log entry 12). Safe. -/
  | spriteRowOutOfRange
  deriving DecidableEq, Repr

/-- The state after reset under a configuration (R35, R320). -/
def State.resetWith (c : Config) : State :=
  { cfg := c, mem := c.ramInit, inBoot := c.bootPresent }

/-- The state after reset under the defaults of R6. -/
def State.reset : State := State.resetWith {}

end Sys2Proof.Machine
end

