-- ==== Sys2Proof/Machine/Params.lean ====
section
/-! DEFINITION. The fixed parameters of R5 that the rules count with. -/

namespace Sys2Proof.Machine

/-- Ticks in OAMScan (R5, R172). -/
abbrev tOam : Nat := 80
/-- Ticks in PixelTransfer (R5, R173). -/
abbrev tXfer : Nat := 172
/-- Ticks in HBlank (R5, R174). -/
abbrev tHblank : Nat := 204
/-- Ticks in one VBlank line (R5, R175). -/
abbrev tLine : Nat := 456
/-- Visible lines (R5). -/
abbrev nVisible : Nat := 144
/-- The highest line index (R5). -/
abbrev lastLine : Nat := 153
/-- Pixels in a line (R5). -/
abbrev lineW : Nat := 160
/-- The first video-memory index that is not tile data (R5, R191). -/
abbrev tileBoundary : Nat := 0x1800
/-- Tiles in the cache (R5). -/
abbrev nTiles : Nat := 384
/-- Sprite height in lines (R5). -/
abbrev spriteH : Nat := 8
/-- Visible sprites per line (R5). -/
abbrev spritesPerLine : Nat := 10
/-- The FIFO level above which a pixel is pushed (R5, R238). -/
abbrev fifoHold : Nat := 8

/-- Cells of each storage array (R5, R24). -/
def arrSize : Arr → Nat
  | .boot => 256
  | .rom0 => 16384
  | .rom1 => 16384
  | .vram => 8192
  | .eram => 8192
  | .wram => 8192
  | .oam => 160
  | .zram => 128

end Sys2Proof.Machine
end

