-- ==== Sys2Proof/Machine/Sparse.lean ====
section
/-! DEFINITION. Tables held as lists of (index, value) pairs in one canonical form: indices strictly rising, and no entry
equal to the value `d` that an unlisted index has. The storage arrays (R24), the tile rows (R28) and the pixel lines (R32)
are such tables. The read and write laws (Sys2Proof/Laws/Sparse.lean) need no canonical form; keeping it makes equal
tables equal data. -/

namespace Sys2Proof.Machine

variable {α : Type}

/-- The value at an index. -/
def Sparse.get (d : α) : List (Nat × α) → Nat → α
  | [], _ => d
  | e :: t, k => if e.1 = k then e.2 else Sparse.get d t k

/-- Without the entries at an index. -/
def Sparse.erase (m : List (Nat × α)) (k : Nat) : List (Nat × α) := m.filter fun e => e.1 ≠ k

/-- With a new entry, before the first entry of a higher index. -/
def Sparse.insert (k : Nat) (v : α) : List (Nat × α) → List (Nat × α)
  | [] => [(k, v)]
  | e :: t => if k < e.1 then (k, v) :: e :: t else e :: Sparse.insert k v t

/-- The value at one index replaced. -/
def Sparse.set [DecidableEq α] (d : α) (m : List (Nat × α)) (k : Nat) (v : α) : List (Nat × α) :=
  if v = d then Sparse.erase m k else Sparse.insert k v (Sparse.erase m k)

/-- The entries of a run of values starting at an index. -/
def Sparse.block [DecidableEq α] (d : α) : Nat → List α → List (Nat × α)
  | _, [] => []
  | k, v :: vs => if v = d then Sparse.block d (k + 1) vs else (k, v) :: Sparse.block d (k + 1) vs

/-- A run of values stored from an index on. -/
def Sparse.load [DecidableEq α] (d : α) (m : List (Nat × α)) (k : Nat) (vs : List α) : List (Nat × α) :=
  m.filter (fun e => e.1 < k) ++ Sparse.block d k vs ++ m.filter (fun e => k + vs.length ≤ e.1)

/-- Indices strictly rising from a lower bound, below an upper bound, no entry equal to `d`. -/
def Sparse.canonFrom [DecidableEq α] (d : α) (size : Nat) : Nat → List (Nat × α) → Bool
  | _, [] => true
  | lo, e :: t => lo ≤ e.1 && e.1 < size && e.2 ≠ d && Sparse.canonFrom d size (e.1 + 1) t

/-- The canonical form of a table of `size` places. -/
def Sparse.canon [DecidableEq α] (d : α) (size : Nat) (m : List (Nat × α)) : Bool := Sparse.canonFrom d size 0 m

/-- A storage array's canonical form. -/
def Memory.wf (size : Nat) (m : Memory) : Bool := Sparse.canon 0#8 size m

/-- A pixel line's canonical form. -/
def Line.wf (l : Line) : Bool := Sparse.canon blankPixel lineW l

/-- The tile rows' canonical form. -/
def TileRows.wf (t : TileRows) : Bool := Sparse.canon 0#16 (8 * nTiles) t

/-- One array of the storage. -/
def Storage.arr (m : Storage) : Arr → Memory
  | .boot => m.boot
  | .rom0 => m.rom0
  | .rom1 => m.rom1
  | .vram => m.vram
  | .eram => m.eram
  | .wram => m.wram
  | .oam => m.oam
  | .zram => m.zram

/-- The storage with one array replaced. -/
def Storage.setArr (m : Storage) (a : Arr) (c : Memory) : Storage :=
  match a with
  | .boot => { m with boot := c }
  | .rom0 => { m with rom0 := c }
  | .rom1 => { m with rom1 := c }
  | .vram => { m with vram := c }
  | .eram => { m with eram := c }
  | .wram => { m with wram := c }
  | .oam => { m with oam := c }
  | .zram => { m with zram := c }

/-- The byte in a cell of an array (R24). -/
def Storage.read (m : Storage) (a : Arr) (k : Nat) : Byte := Sparse.get 0#8 (m.arr a) k

/-- The byte in a cell of an array replaced (R24). -/
def Storage.write (m : Storage) (a : Arr) (k : Nat) (v : Byte) : Storage :=
  m.setArr a (Sparse.set 0#8 (m.arr a) k v)

/-- Bytes stored in consecutive cells of an array. -/
def Storage.load (m : Storage) (a : Arr) (k : Nat) (vs : List Byte) : Storage :=
  m.setArr a (Sparse.load 0#8 (m.arr a) k vs)

/-- All eight arrays are in canonical form and hold no cell beyond their size. -/
def Storage.wf (m : Storage) : Bool :=
  [Arr.boot, .rom0, .rom1, .vram, .eram, .wram, .oam, .zram].all fun a => Memory.wf (arrSize a) (m.arr a)

end Sys2Proof.Machine
end

