-- ==== Sys2Proof/Machine/Flags.lean ====
section
/-! DEFINITION. The flag-like bits that are computed, not stored (R22): the OAM lock here, and `unsup` beside the access it
belongs to (Operands.lean). -/

namespace Sys2Proof.Machine

/-- `oam_locked`: the mode is one of OAM_LOCK_MODES (R22, R70, R180). -/
def State.oamLocked (s : State) : Bool := s.cfg.oamLockModes.contains s.timer.mode

/-- `vis_count` (R29). -/
def State.visCount (s : State) : Nat := s.sprites.vis.length

end Sys2Proof.Machine
end

