-- ==== Sys2Proof/Machine/Operands.lean ====
section
/-! DEFINITION. Operand forms: the region and cell an address names (R61), the cell a write stores to and the `unsup` bit of
an access (R121, R122, R127), the halves of a word (R66, R105), the malformed check (R145), and the addresses the fetcher
reads (R234, R235). -/

namespace Sys2Proof.Machine

/-- The decode ladder: tested top to bottom, the first test that holds selects the region (R61). -/
def regionOf (inBoot : Bool) (a : Addr) : Region :=
  let n := a.toNat
  if n ≤ 0x00FF ∧ inBoot = true then .boot
  else if n ≤ 0x3FFF then .rom0
  else if n ≤ 0x7FFF then .rom1
  else if n ≤ 0x9FFF then .video
  else if n ≤ 0xBFFF then .externalRam
  else if n ≤ 0xDFFF then .workRam
  else if n ≤ 0xFDFF then .workShadow
  else if n ≤ 0xFE9F then .spriteMemory
  else if n ≤ 0xFEFF then .zeroSink
  else if n ≤ 0xFF7F then .ioSink
  else .zeroPage

/-- The cell of a region an address selects; a sink has none (R61). -/
def cellOf (r : Region) (a : Addr) : Option (Arr × Nat) :=
  let n := a.toNat
  match r with
  | .boot => some (.boot, n)
  | .rom0 => some (.rom0, n)
  | .rom1 => some (.rom1, n - 0x4000)
  | .video => some (.vram, n % 0x2000)
  | .externalRam => some (.eram, n % 0x2000)
  | .workRam => some (.wram, n % 0x2000)
  | .workShadow => some (.wram, n % 0x2000)
  | .spriteMemory => some (.oam, n - 0xFE00)
  | .zeroSink => none
  | .ioSink => none
  | .zeroPage => some (.zram, n % 0x80)

/-- The region an address names now. -/
def State.region (s : State) (a : Addr) : Region := regionOf s.inBoot a

/-- IO_READ_DEFAULT (R6, R63). -/
def ioReadDefault (c : Config) (a : Addr) : Byte := Sparse.get 0#8 c.ioRead (a.toNat - 0xFF00)

/-- The cell a byte write to an address stores to, or none where the write is discarded (R122). -/
def State.storeCell (s : State) (a : Addr) : Option (Arr × Nat) :=
  match s.region a with
  | .boot => none
  | .rom0 => none
  | .rom1 => none
  | .spriteMemory => if s.oamLocked then none else cellOf .spriteMemory a
  | r => cellOf r a

/-- The `unsup` bit of a byte write (R122, R297). -/
def State.writeUnsup (s : State) (a : Addr) : Bool :=
  match s.region a with
  | .boot => true
  | .rom0 => true
  | .rom1 => true
  | .spriteMemory => s.oamLocked
  | .ioSink => true
  | _ => false

/-- The second byte's address; never computed at 0xFFFF (R105). -/
def nextAddr (a : Addr) : Addr := a + 1

/-- The half of a word stored at the lower address, bits 7:0 (R66). -/
def lowByte (w : Word) : Byte := w.setWidth 8

/-- The half of a word stored at the higher address, bits 15:8 (R66). -/
def highByte (w : Word) : Byte := w.extractLsb' 8 8

/-- The word `{hi, lo}` (R123). -/
def joinBytes (hi lo : Byte) : Word := hi ++ lo

/-- The malformed request: a word operation at 0xFFFF (R145). -/
def wordAddrBad (a : Addr) : Bool := a == 0xFFFF#16

/-- BG_MAP_ADDR: the configured address, else 0x9800 + 32*(line >> 3) + fetch_x (R6, R234). -/
def bgMapAddr (c : Config) (line : BitVec 8) (x : BitVec 5) : Addr :=
  Sparse.get (BitVec.ofNat 16 (0x9800 + 32 * (line.toNat / 8) + x.toNat)) c.bgMap (32 * line.toNat + x.toNat)

/-- BG_DATA_ADDR: the configured address, else 0x8000 + 16*tile_no + 2*(line & 7) (R6, R235). -/
def bgDataAddr (c : Config) (tileNo : Byte) (line : BitVec 8) : Addr :=
  Sparse.get (BitVec.ofNat 16 (0x8000 + 16 * tileNo.toNat + 2 * (line.toNat % 8))) c.bgData
    (256 * tileNo.toNat + line.toNat)

/-- SHADE_TABLE (R6, R99). -/
def shadeOf (c : Config) (code : BitVec 2) : Shade :=
  match code.toNat with
  | 0 => c.shades.code0
  | 1 => c.shades.code1
  | 2 => c.shades.code2
  | _ => c.shades.code3

/-- The request word a latch holds (R26, R91). -/
def Latch.word (l : Latch) : ReqWord := reqWord l.op l.addr l.wdata

end Sys2Proof.Machine
end

