-- ==== Sys2Proof/Machine/TileStore.lean ====
section
/-! DEFINITION. TileStore (43_tilestore.md). -/

namespace Sys2Proof.Machine

/-- The row word `S.tile[t][r]` (R28). -/
def State.tileRow (s : State) (t r : Nat) : Word := Sparse.get 0#16 s.tile (8 * t + r)

/-- The row word recomputed from the pair of bytes around a video index: even byte in bits 15:8, odd byte in 7:0 (R191). -/
def videoRow (m : Storage) (index : Nat) : Word :=
  let e := index / 2 * 2
  joinBytes (m.read .vram e) (m.read .vram (e + 1))

/-- writeVideoByte (R191): the store, then the recompute of the affected row for an index below TILE_BOUNDARY. -/
def writeVideoByte (index : Nat) (v : Byte) (s : State) : State :=
  let mem := s.mem.write .vram index v
  if index < tileBoundary then
    let t := index / 16
    let r := index % 16 / 2
    { s with mem := mem, tile := Sparse.set 0#16 s.tile (8 * t + r) (videoRow mem index) }
  else { s with mem := mem }

/-- readTile (R192): the eight row words of a tile. An index above 383 has no value of the argument's type. -/
def readTile (s : State) (t : Fin nTiles) : Vector Word 8 :=
  #v[s.tileRow t 0, s.tileRow t 1, s.tileRow t 2, s.tileRow t 3, s.tileRow t 4, s.tileRow t 5, s.tileRow t 6, s.tileRow t 7]

/-- resetAll (R193): every row 0x0000; video memory is not touched. -/
def tileResetAll (s : State) : State := { s with tile := [] }

/-- The pixel decode (R98, R194): `{row[15 - x], row[7 - x]}`. -/
def pix (row : Word) (x : Nat) : BitVec 2 :=
  BitVec.ofBool (row.getLsbD (15 - x)) ++ BitVec.ofBool (row.getLsbD (7 - x))

end Sys2Proof.Machine
end

