-- ==== Sys2Proof/Machine/Ops.lean ====
section
/-! DEFINITION. The shared operations: the byte and word accesses of AddressMap (40_addressmap.md), the arbiter's answer
(R150, R151), and raising Fatal (R291), which is the block's only exception. There is no return from it but reset
(R301). -/

namespace Sys2Proof.Machine

/-- What one step or one operation answers. -/
abbrev Result := Host.Outcome State Fault Refusal

/-- `read(p, a)` (R121): the value and the `unsup` bit. -/
def readByte (s : State) (p : Port) (a : Addr) : Byte × Bool :=
  match s.region a with
  | .zeroSink => (0, false)
  | .ioSink => (ioReadDefault s.cfg a, true)
  | r =>
    if r = .spriteMemory ∧ s.oamLocked = true ∧ p = .portP then (0, true)
    else
      match cellOf r a with
      | some c => (s.mem.read c.1 c.2, false)
      | none => (0, false)

/-- A byte stored in a cell; a video-memory cell goes through writeVideoByte (R122). -/
def storeByte (c : Arr × Nat) (v : Byte) (s : State) : State :=
  if c.1 = .vram then writeVideoByte c.2 v s else { s with mem := s.mem.write c.1 c.2 v }

/-- `write(p, a, v)` (R122). The port plays no part in a write. -/
def writeByte (a : Addr) (v : Byte) (s : State) : State :=
  match s.storeCell a with
  | some c => storeByte c v s
  | none => s

/-- `readWord(p, a)` (R123): low byte first, each decoded on its own. -/
def readWord (s : State) (p : Port) (a : Addr) : Word × Bool :=
  let lo := readByte s p a
  let hi := readByte s p (nextAddr a)
  (joinBytes hi.1 lo.1, lo.2 || hi.2)

/-- `writeWord(p, a, w)` (R124): low byte first, then high byte. -/
def writeWord (a : Addr) (w : Word) (s : State) : State :=
  writeByte (nextAddr a) (highByte w) (writeByte a (lowByte w) s)

/-- The `unsup` bit of a word write: the OR of its halves (R124). -/
def State.writeWordUnsup (s : State) (a : Addr) : Bool := s.writeUnsup a || s.writeUnsup (nextAddr a)

/-- A port's request latch. -/
def Arbiter.req (b : Arbiter) : Port → Latch
  | .portP => b.reqP
  | .portG => b.reqG

/-- The arbiter with a port's latch replaced. -/
def Arbiter.setReq (b : Arbiter) (p : Port) (l : Latch) : Arbiter :=
  match p with
  | .portP => { b with reqP := l }
  | .portG => { b with reqG := l }

/-- The response on a port's reply channel in this step. -/
def Arbiter.reply (b : Arbiter) : Port → Option Rsp
  | .portP => b.replyP
  | .portG => b.replyG

/-- The arbiter with a response placed on a port's reply channel. -/
def Arbiter.setReply (b : Arbiter) (p : Port) (r : Option Rsp) : Arbiter :=
  match p with
  | .portP => { b with replyP := r }
  | .portG => { b with replyG := r }

/-- A port's request is no longer outstanding: `req[p].valid` is cleared, the other fields stay (R144). -/
def Arbiter.release (b : Arbiter) (p : Port) : Arbiter := b.setReq p { b.req p with valid := false }

/-- `raise Fatal(cause)` (R291): the latch is set and the cause recorded. -/
def raiseFatal (c : FatalCause) (s : State) : State := { s with arb := { s.arb with fatal := true, cause := c } }

/-- Response delivery (R151): the RSP on the port's reply channel, the requester unblocked. -/
def respond (p : Port) (r : Rsp) (s : State) : State := { s with arb := (s.arb.setReply p (some r)).release p }

/-- The response an operation gives, or MEM_ERROR for an unsupported access under STRICT_UNSUPPORTED (R150). -/
def answerOf (c : Config) (st : Status) (u : Bool) (data : Word) : Rsp :=
  if u && c.strict then ⟨.memError, true, 0⟩ else ⟨st, u, data⟩

/-- The end of a serviced request (R150, R151). -/
def answer (p : Port) (st : Status) (u : Bool) (data : Word) (s : State) : State := respond p (answerOf s.cfg st u data) s

/-- The failure of a malformed request (R145): the MALFORMED response, then the fatal latch. -/
def failMalformed (p : Port) (s : State) : State := raiseFatal .malformedRequest (respond p ⟨.malformed, false, 0⟩ s)

/-- The failure of a request on a severed channel (R156): no response, the fatal latch. The request is gone from its latch
as it is from the queue (R34 g; log entry 7). -/
def failSevered (p : Port) (s : State) : State := raiseFatal .channelSevered { s with arb := s.arb.release p }

/-- What every service does before the operation itself (R144, R152, R155, R156, R300): nothing runs after a fatal fault,
and `alive` is tested before anything else. -/
def serve (body : Port → State → State) (s : State) : Result :=
  if s.arb.fatal then .fault .fatalLatched
  else if s.arb.alive then .next (body s.arb.port s)
  else .next (failSevered s.arb.port s)

/-- One operation after another inside a step: a raise ends the step, keeping what it did before (R291). -/
def thenRun (o : Result) (k : State → Result) : Result :=
  match o with
  | .next s => if s.arb.fatal then .next s else k s
  | .fault r => .fault r
  | .refused r => .refused r

end Sys2Proof.Machine
end

