-- ==== Sys2Proof/Machine/Bus.lean ====
section
/-! DEFINITION. The meanings of the four bus operations (R146 to R149), each executed for the port the arbiter is serving. -/

namespace Sys2Proof.Machine

/-- RB (R146). -/
def execRb (addr : Addr) (s : State) : Result :=
  serve (fun p s => answer p .okData (readByte s p addr).2 ((readByte s p addr).1.setWidth 16) s) s

/-- RW (R147). -/
def execRw (addr : Addr) (s : State) : Result :=
  serve (fun p s =>
    if wordAddrBad addr then failMalformed p s
    else answer p .okData (readWord s p addr).2 (readWord s p addr).1 s) s

/-- WB (R148). -/
def execWb (addr : Addr) (value : Byte) (s : State) : Result :=
  serve (fun p s => answer p .okNoData (s.writeUnsup addr) 0 (writeByte addr value s)) s

/-- WW (R149). -/
def execWw (addr : Addr) (value : Word) (s : State) : Result :=
  serve (fun p s =>
    if wordAddrBad addr then failMalformed p s
    else answer p .okNoData (s.writeWordUnsup addr) 0 (writeWord addr value s)) s

end Sys2Proof.Machine
end

