-- ==== Sys2Proof/Machine/Dispatch.lean ====
section
/-! DEFINITION. One arm per bus operation. -/

namespace Sys2Proof.Machine

def exec (i : Instr) (s : State) : Host.Outcome State Fault Refusal :=
  match i with
  | .rb addr => Sys2Proof.Machine.execRb addr s
  | .rw addr => Sys2Proof.Machine.execRw addr s
  | .wb addr value => Sys2Proof.Machine.execWb addr value s
  | .ww addr value => Sys2Proof.Machine.execWw addr value s

end Sys2Proof.Machine
end

