-- ==== Sys2Proof/Machine/ArbiterOps.lean ====
section
/-! DEFINITION. The arbiter around the four operations: submit, arrival order, service, and the whole transaction (R141 to
R152). The file is named apart from the state's Arbiter structure. -/

namespace Sys2Proof.Machine

/-- The latch a request word is held in while its port is blocked (R26, R141). -/
def latchOf (w : ReqWord) (stamp : Nat) : Latch :=
  { valid := true, op := reqOp w, addr := reqAddr w, wdata := reqData w, stamp := stamp }

/-- Submit's effect (R141): the latch filled, the port appended to the queue. Any word is accepted. -/
def enqueueRequest (p : Port) (w : ReqWord) (s : State) : State :=
  let b := s.arb.setReq p (latchOf w s.arb.nextStamp)
  { s with arb := { b with queue := b.queue ++ [p], nextStamp := b.nextStamp + 1 } }

/-- Submit (R141), enabled while nothing is fatal and the port is not blocked. -/
def submit (p : Port) (w : ReqWord) (s : State) : Result :=
  if s.arb.fatal then .fault .fatalLatched
  else if (s.arb.req p).valid then .fault (.portBlocked p)
  else .next (enqueueRequest p w s)

/-- Two requests arriving at the same instant: TIE_BREAK gives their order (R143, U13; log entry 2). -/
def submitBoth (wP wG : ReqWord) (s : State) : Result :=
  let s1 := { s with draws := s.draws + 1 }
  match Config.tieBreak s.draws with
  | .portP => thenRun (submit .portP wP s1) (submit .portG wG)
  | .portG => thenRun (submit .portG wG s1) (submit .portP wP)

/-- The state in which a request taken from the head of the queue is executed: the queue without it, its port served
(R144). -/
def takeHead (p : Port) (rest : List Port) (s : State) : State := { s with arb := { s.arb with queue := rest, port := p } }

/-- Service (R144): the request at the head of the queue is decoded and executed, in one step. -/
def service (s : State) : Result :=
  if s.arb.fatal then .fault .fatalLatched
  else
    match s.arb.queue with
    | [] => .fault .nothingPending
    | p :: rest => exec (decode (s.arb.req p).word) (takeHead p rest s)

/-- Services in arrival order until a port's own request has been taken (R142, R143). The list is the queue. -/
def serviceUntil (p : Port) : List Port → State → Result
  | [], _ => .fault .nothingPending
  | q :: rest, s => if q = p then service s else thenRun (service s) (serviceUntil p rest)

/-- A whole bus transaction on a port (R152): submit, then service until it is answered. With nothing else pending it is
the fused transaction; a request of the other port that arrived earlier is serviced first (R143). -/
def transact (p : Port) (w : ReqWord) (s : State) : Result :=
  thenRun (submit p w s) fun s1 => serviceUntil p s1.arb.queue s1

/-- A port whose request is outstanding, if there is one (R34 g, R142). -/
def State.pendingPort? (s : State) : Option Port :=
  if s.arb.reqG.valid then some .portG else if s.arb.reqP.valid then some .portP else s.arb.queue.head?

/-- A read issued by the graphics actor on port G (R8 BusRead_G, R272). -/
def busReadG (i : Instr) (s : State) : Result := transact .portG (encode i) s

/-- The data field of the response on port G's reply channel (R8). -/
def replyDataG (s : State) : Word :=
  match s.arb.replyG with
  | some r => r.data
  | none => 0

end Sys2Proof.Machine
end

