-- ==== Sys2Proof/Machine/SpriteOps.lean ====
section
/-! DEFINITION. SpriteTable's operations (44_spritetable.md). -/

namespace Sys2Proof.Machine

/-- Visibility on a line, in integer arithmetic (R211). -/
def spriteVisible (r : SpriteRec) (line : Nat) : Bool := r.y.toNat ≤ line + 16 && line + 16 < r.y.toNat + spriteH

/-- newLine (R213): no sprite consumed, none visible. -/
def newLine (s : State) : State :=
  { s with sprites := { s.sprites with consumed := Vector.replicate 40 false, vis := [] } }

/-- The two bytes of word `c` of attribute memory stored in the record they belong to (R212). -/
def storeScanned (c : Nat) (w : Word) (r : SpriteRec) : SpriteRec :=
  if c % 2 = 0 then { r with y := lowByte w, x := highByte w } else { r with tile := lowByte w, flags := highByte w }

/-- The record store of scanStep (R212). A word beyond the 80 of attribute memory belongs to no record (log entry 11). -/
def loadScanned (c : Nat) (w : Word) (s : State) : State :=
  if h : c / 2 < 40 then
    { s with sprites := { s.sprites with recs := s.sprites.recs.set (c / 2) (storeScanned c w s.sprites.recs[c / 2]) h } }
  else s

/-- The address scanStep reads (R212). -/
def scanAddr (c : Nat) : Addr := BitVec.ofNat 16 (0xFE00 + 2 * c)

/-- scanStep (R212): one ReadWord on port G, its two bytes stored. -/
def scanStep (c : Nat) (s : State) : Result :=
  thenRun (busReadG (.rw (scanAddr c)) s) fun s1 => .next (loadScanned c (replyDataG s1) s1)

/-- scanline (R214): the visible, unconsumed records in table order, at most ten. -/
def scanline (t : SpriteTable) (line : Nat) : List (Fin 40) :=
  ((List.finRange 40).filter fun n => spriteVisible t.recs[n] line && !t.consumed[n]).take spritesPerLine

/-- consume (R215). -/
def consume (n : Fin 40) (s : State) : State :=
  { s with sprites := { s.sprites with consumed := s.sprites.consumed.set n true } }

end Sys2Proof.Machine
end

