-- ==== Sys2Proof/Machine/Wire.lean ====
section
/-! DEFINITION. Code numbers and wire forms other than the request: statuses, causes, modes, fetcher states, sources (R94,
R95, R100 to R102), the response word (R93), the sprite record's flags (R97) and the raw form (R107, R154). -/

namespace Sys2Proof.Machine

/-- Status codes (R94). -/
def Status.code : Status → BitVec 2
  | .okData => 0
  | .okNoData => 1
  | .memError => 2
  | .malformed => 3

/-- The status of a code (R94). -/
def Status.ofCode (c : BitVec 2) : Status :=
  match c.toNat with
  | 0 => .okData
  | 1 => .okNoData
  | 2 => .memError
  | _ => .malformed

/-- A response on the wire: status 18:17, unsup 16, data 15:0 (R93). -/
def Rsp.encode (r : Rsp) : RspWord := r.status.code ++ BitVec.ofBool r.unsup ++ r.data

/-- A response read from the wire (R93). -/
def decodeRsp (w : RspWord) : Rsp :=
  ⟨Status.ofCode (w.extractLsb' 17 2), w.getLsbD 16, w.extractLsb' 0 16⟩

/-- Fatal cause codes (R95). -/
def FatalCause.code : FatalCause → BitVec 3
  | .noCause => 0
  | .malformedRequest => 1
  | .channelSevered => 2
  | .timingLine => 3
  | .timingCounter => 4
  | .overlayEmptySlot => 5

/-- Mode codes (R100). -/
def Mode.code : Mode → BitVec 2
  | .oamScan => 0
  | .pixelTransfer => 1
  | .hBlank => 2
  | .vBlank => 3

/-- Fetcher state codes (R102). -/
def FState.code : FState → BitVec 2
  | .resolve => 0
  | .low => 1
  | .high => 2
  | .enq => 3

/-- Source codes (R101). -/
def Src.code : Src → BitVec 2
  | .bg => 0
  | .spr0 => 1
  | .spr1 => 2

/-- A FIFO slot as five bits, {valid, src, code} (R101). -/
def Slot.bits (s : Slot) : BitVec 5 := BitVec.ofBool s.valid ++ s.src.code ++ s.code

/-- An output pixel as four bits, {src, code} (R103). -/
def Pixel.bits (p : Pixel) : BitVec 4 := p.src.code ++ p.code

/-- Flags bit 7 (R97, R210). No rule uses it (R240). -/
def SpriteRec.priority (r : SpriteRec) : Bool := r.flags.getLsbD 7
/-- Flags bit 6 (R97, R210). -/
def SpriteRec.yFlip (r : SpriteRec) : Bool := r.flags.getLsbD 6
/-- Flags bit 5 (R97, R210). -/
def SpriteRec.xFlip (r : SpriteRec) : Bool := r.flags.getLsbD 5
/-- Flags bit 4 (R97, R210). -/
def SpriteRec.paletteSelect (r : SpriteRec) : Bool := r.flags.getLsbD 4

/-- The four calls of the raw form (R107). -/
inductive RawCall where
  | read (a : Addr)
  | readWord (a : Addr)
  | write (a : Addr) (v : Byte)
  | writeWord (a : Addr) (v : Word)
  deriving DecidableEq, Repr

/-- The bus operation a raw call expands to (R107). -/
def RawCall.expand : RawCall → Instr
  | .read a => .rb a
  | .readWord a => .rw a
  | .write a v => .wb a v
  | .writeWord a v => .ww a v

/-- What a raw caller receives: a payload or an error (R154). -/
inductive RawResult where
  | payloadByte (b : Byte)
  | payloadWord (w : Word)
  | payloadNone
  | memoryError
  | malformedError
  deriving DecidableEq, Repr

/-- The response as the raw form sees it; `unsup` is dropped (R154). -/
def RawCall.result (c : RawCall) (r : Rsp) : RawResult :=
  match r.status with
  | .okData =>
    match c with
    | .read _ => .payloadByte (r.data.setWidth 8)
    | _ => .payloadWord r.data
  | .okNoData => .payloadNone
  | .memError => .memoryError
  | .malformed => .malformedError

end Sys2Proof.Machine
end

