-- ==== Sys2Proof/Machine/PixelOps.lean ====
section
/-! DEFINITION. PixelPipeline's operations (45_pixelpipeline.md), stage by stage. -/

namespace Sys2Proof.Machine

/-- Slot k of the FIFO made invalid, its other bits kept (R231, R243). -/
def Slot.invalid (x : Slot) : Slot := { x with valid := false }

/-- The FIFO with every slot invalid (R231). -/
def fifoInvalid (f : Vector Slot 16) : Vector Slot 16 :=
  #v[f[0].invalid, f[1].invalid, f[2].invalid, f[3].invalid, f[4].invalid, f[5].invalid, f[6].invalid, f[7].invalid,
    f[8].invalid, f[9].invalid, f[10].invalid, f[11].invalid, f[12].invalid, f[13].invalid, f[14].invalid, f[15].invalid]

/-- The shift of the push stage: each slot takes the next one's content and slot 15 becomes invalid (R243). -/
def fifoShift (f : Vector Slot 16) : Vector Slot 16 :=
  #v[f[1], f[2], f[3], f[4], f[5], f[6], f[7], f[8], f[9], f[10], f[11], f[12], f[13], f[14], f[15], f[15].invalid]

/-- lineReset (R231). -/
def lineResetPipe (q : Pipeline) : Pipeline :=
  { fstate := .resolve, phase := false, fetchX := 0, tileNo := 0, byte0 := 0, byte1 := 0,
    fifo := fifoInvalid q.fifo, count := 0, outCol := 0, linebuf := [] }

/-- lineReset on the state: nothing but the pipeline is touched (R231). -/
def lineReset (s : State) : State := { s with pipe := lineResetPipe s.pipe }

/-- The tile number taken from the map read (R234). -/
def gotTileNo (b : Byte) (s : State) : State := { s with pipe := { s.pipe with tileNo := b, fstate := .low } }

/-- The first data byte taken (R235). -/
def gotByte0 (b : Byte) (s : State) : State := { s with pipe := { s.pipe with byte0 := b, fstate := .high } }

/-- The second data byte taken (R236). -/
def gotByte1 (b : Byte) (s : State) : State := { s with pipe := { s.pipe with byte1 := b, fstate := .enq } }

/-- The RESOLVE step (R234). -/
def resolveStep (s : State) : Result :=
  thenRun (busReadG (.rb (bgMapAddr s.cfg s.timer.line s.pipe.fetchX)) s) fun s1 =>
    .next (gotTileNo (lowByte (replyDataG s1)) s1)

/-- The LOW step (R235). -/
def lowStep (s : State) : Result :=
  thenRun (busReadG (.rb (bgDataAddr s.cfg s.pipe.tileNo s.timer.line)) s) fun s1 =>
    .next (gotByte0 (lowByte (replyDataG s1)) s1)

/-- The HIGH step (R236). -/
def highStep (s : State) : Result :=
  thenRun (busReadG (.rb (nextAddr (bgDataAddr s.cfg s.pipe.tileNo s.timer.line))) s) fun s1 =>
    .next (gotByte1 (lowByte (replyDataG s1)) s1)

/-- The state with the fetcher's phase bit set to a value (R233). -/
def setPhase (b : Bool) (s : State) : State := { s with pipe := { s.pipe with phase := b } }

/-- The fetch stage (R233): a step reads on the second dot of its pair; ENQ does nothing here. -/
def fetchStage (s : State) : Result :=
  match s.pipe.fstate with
  | .enq => .next s
  | .resolve => if s.pipe.phase then resolveStep (setPhase false s) else .next (setPhase true s)
  | .low => if s.pipe.phase then lowStep (setPhase false s) else .next (setPhase true s)
  | .high => if s.pipe.phase then highStep (setPhase false s) else .next (setPhase true s)

/-- A background slot holding pixel i of a row (R237). -/
def bgSlot (row : Word) (i : Nat) : Slot := { valid := true, src := .bg, code := pix row i }

/-- The FIFO with the eight pixels of a row stored from a position on (R237). -/
def fifoAppend (f : Vector Slot 16) (at_ : Nat) (row : Word) : Vector Slot 16 :=
  ((((((((f.setIfInBounds at_ (bgSlot row 0)).setIfInBounds (at_ + 1) (bgSlot row 1)).setIfInBounds (at_ + 2)
    (bgSlot row 2)).setIfInBounds (at_ + 3) (bgSlot row 3)).setIfInBounds (at_ + 4) (bgSlot row 4)).setIfInBounds (at_ + 5)
    (bgSlot row 5)).setIfInBounds (at_ + 6) (bgSlot row 6)).setIfInBounds (at_ + 7) (bgSlot row 7))

/-- The enqueue stage (R237) on the pipeline. -/
def enqueuePipe (q : Pipeline) : Pipeline :=
  if q.fstate = .enq ∧ q.count.toNat ≤ fifoHold then
    { q with
      fifo := fifoAppend q.fifo q.count.toNat (joinBytes q.byte0 q.byte1)
      count := q.count + 8
      fetchX := q.fetchX + 1
      fstate := .resolve
      phase := false }
  else q

/-- The enqueue stage (R237). -/
def enqueueStage (s : State) : State := { s with pipe := enqueuePipe s.pipe }

/-- The tile row of a sprite on a line: line + 16 - y, mirrored by yFlip (R241). None where the sprite is not visible on the
line, which no run reaches (log entry 12). -/
def spriteRow (r : SpriteRec) (line : Nat) : Option (Fin 8) :=
  if r.y.toNat ≤ line + 16 then
    let d := line + 16 - r.y.toNat
    if h : d < 8 then some (if r.yFlip then ⟨7 - d, by omega⟩ else ⟨d, h⟩) else none
  else none

/-- The tile column of position i of a sprite (R241). -/
def spriteCol (r : SpriteRec) (i : Nat) : Nat := if r.xFlip then 7 - i else i

/-- A sprite's tile number as an index of the cache: 0..255 (R241). -/
def tileIndex (b : Byte) : Fin nTiles := ⟨b.toNat, by have := b.isLt; simp only [nTiles]; omega⟩

/-- The sprite pixel (R241). -/
def spritePixel (s : State) (n : Fin 40) (i : Nat) : Option (BitVec 2) :=
  (spriteRow s.sprites.recs[n] s.timer.line.toNat).map fun r =>
    pix (readTile s (tileIndex s.sprites.recs[n].tile))[r] (spriteCol s.sprites.recs[n] i)

/-- The tag an overlaid slot takes (R240). -/
def spriteSrc (r : SpriteRec) : Src := if r.paletteSelect then .spr1 else .spr0

/-- One slot under a sprite pixel (R240): replaced when it is background and the pixel is not transparent. -/
def overlaySlot (x : Slot) (r : SpriteRec) (c : BitVec 2) : Slot :=
  if x.src = .bg ∧ c ≠ 0 then { x with code := c, src := spriteSrc r } else x

/-- Slot i of the FIFO under pixel c of sprite n (R240). -/
def putOverlay (n : Fin 40) (i : Fin 16) (c : BitVec 2) (s : State) : State :=
  { s with pipe := { s.pipe with fifo := s.pipe.fifo.set i (overlaySlot s.pipe.fifo[i] s.sprites.recs[n] c) } }

/-- Overlay position i of sprite n (R240): an empty slot raises Fatal (R242). -/
def overlayAt (n : Fin 40) (i : Fin 16) (s : State) : Result :=
  if s.pipe.fifo[i].valid then
    match spritePixel s n i with
    | some c => .next (putOverlay n i c s)
    | none => .refused .spriteRowOutOfRange
  else .next (raiseFatal .overlayEmptySlot s)

/-- Overlay of a sprite over positions in order (R240). -/
def overlayFrom (n : Fin 40) : List (Fin 16) → State → Result
  | [], s => .next s
  | i :: is, s => thenRun (overlayAt n i s) (overlayFrom n is)

/-- Overlay of a sprite over the eight oldest slots (R240). -/
def overlay (n : Fin 40) (s : State) : Result := overlayFrom n [0, 1, 2, 3, 4, 5, 6, 7] s

/-- The sprite's window start is the output column, in integer arithmetic (R239). -/
def overlayMatches (s : State) (n : Fin 40) : Bool :=
  !s.sprites.consumed[n] && s.sprites.recs[n].x.toNat == s.pipe.outCol.toNat + 8

/-- The overlay stage (R239): the first unconsumed match in list order is overlaid and consumed. -/
def overlayStage (s : State) : Result :=
  match s.sprites.vis.find? (overlayMatches s) with
  | some n => thenRun (overlay n s) fun s1 => .next (consume n s1)
  | none => .next s

/-- The push stage (R243) on the pipeline. -/
def pushPipe (q : Pipeline) : Pipeline :=
  { q with
    linebuf := Sparse.set blankPixel q.linebuf q.outCol.toNat ⟨q.fifo[0].src, q.fifo[0].code⟩
    fifo := fifoShift q.fifo
    count := q.count - 1
    outCol := q.outCol + 1 }

/-- The push stage (R243). -/
def pushStage (s : State) : State := { s with pipe := pushPipe s.pipe }

/-- The gate and what stands behind it: overlay, then push (R230, R238). -/
def emitStage (s : State) : Result :=
  if fifoHold < s.pipe.count.toNat then thenRun (overlayStage s) fun s1 => .next (pushStage s1) else .next s

/-- One dot (R230); nothing once the line is complete (R232). -/
def dot (s : State) : Result :=
  if lineW ≤ s.pipe.outCol.toNat then .next s
  else thenRun (fetchStage s) fun s1 => emitStage (enqueueStage s1)

/-- Column c of a line. -/
def linePixel (l : Line) (c : Nat) : Pixel := Sparse.get blankPixel l c

/-- The 160 RGBA quadruplets of a line (R103, R178). -/
def linePixels (l : Line) : List (BitVec 32) :=
  (List.range lineW).map fun c => Config.rgbaOf (linePixel l c).src (linePixel l c).code

/-- The colour name of a pixel (R244). -/
def pixelShade (c : Config) (x : Pixel) : Shade := shadeOf c x.code

end Sys2Proof.Machine
end

