-- ==== Sys2Proof/Machine/ModeTimer.lean ====
section
/-! DEFINITION. The graphics tick and the four modes (42_modetimer.md). -/

namespace Sys2Proof.Machine

/-- A strobe emitted in this step (R8). -/
def strobe (e : Strobe) (s : State) : State := { s with strobes := s.strobes ++ [e] }

/-- The counter one tick on (R170). -/
def countOn (s : State) : State := { s with timer := { s.timer with counter := s.timer.counter + 1 } }

/-- The mode left: the counter cleared, the next mode entered. -/
def enterMode (m : Mode) (s : State) : State := { s with timer := { s.timer with counter := 0, mode := m } }

/-- The tick has reached the mode's budget (R170, R295). -/
def budgetReached (budget : Nat) (s : State) : Bool := budget ≤ s.timer.counter.toNat + 1

/-- The end of OAMScan (R172): the line's sprites selected, the pipeline reset, PixelTransfer entered. -/
def endOamScan (s : State) : State :=
  enterMode .pixelTransfer
    (lineReset { s with sprites := { s.sprites with vis := scanline s.sprites s.timer.line.toNat } })

/-- The OAMScan tick (R172). -/
def oamScanTick (s : State) : Result :=
  thenRun (scanStep s.timer.counter.toNat (if s.timer.counter = 0 then newLine s else s)) fun s1 =>
    .next (if budgetReached tOam s1 then endOamScan s1 else countOn s1)

/-- emitLine (R178): the line copied to the frame buffer, the line_done strobe. -/
def emitLine (s : State) : State :=
  strobe (.lineDone s.timer.line (linePixels s.pipe.linebuf))
    { s with fb := s.fb.setIfInBounds s.timer.line.toNat s.pipe.linebuf }

/-- The PixelTransfer tick (R173). -/
def pixelTransferTick (s : State) : Result :=
  thenRun (dot s) fun s1 =>
    .next (if budgetReached tXfer s1 then enterMode .hBlank (emitLine s1) else countOn s1)

/-- The state with another line number. -/
def setLine (n : BitVec 8) (s : State) : State := { s with timer := { s.timer with line := n } }

/-- The HBlank tick (R174): after line 143 comes VBlank and the frame_done strobe (R179). -/
def hBlankTick (s : State) : State :=
  if budgetReached tHblank s then
    let n := s.timer.line + 1
    if n.toNat = nVisible then strobe .frameDone (enterMode .vBlank (setLine n s))
    else enterMode .oamScan (setLine n s)
  else countOn s

/-- The VBlank tick (R175): after line 153 a new frame begins. -/
def vBlankTick (s : State) : State :=
  if budgetReached tLine s then
    let n := s.timer.line + 1
    if lastLine < n.toNat then enterMode .oamScan (setLine 0 s) else enterMode .vBlank (setLine n s)
  else countOn s

/-- The dispatch on the mode as it is at the start of the tick (R170). -/
def modeTick (s : State) : Result :=
  match s.timer.mode with
  | .oamScan => oamScanTick s
  | .pixelTransfer => pixelTransferTick s
  | .hBlank => .next (hBlankTick s)
  | .vBlank => .next (vBlankTick s)

/-- The graphics tick (R170): not enabled after a fatal fault or while a request is outstanding, since no tick passes between
a request and its response (R142, R158; log entry 17); the line check comes first (R171). -/
def tick (s : State) : Result :=
  if s.arb.fatal then .fault .fatalLatched
  else
    match s.pendingPort? with
    | some p => .fault (.portBlocked p)
    | none => if lastLine < s.timer.line.toNat then .next (raiseFatal .timingLine s) else modeTick s

end Sys2Proof.Machine
end

