-- ==== Sys2Proof/Machine/Driver.lean ====
section
/-! DEFINITION. The host events (R273 to R279) and the driver's moves (R270). -/

namespace Sys2Proof.Machine

/-- reset (R273, R320): every piece of the block's state at its reset value. The configuration, the moves still to come and
the count of drawn values belong to the outside and stay. -/
def hostReset (s : State) : State := { State.resetWith s.cfg with moves := s.moves, draws := s.draws }

/-- load_boot (R274): the first 256 bytes of the image. -/
def loadBoot (bytes : List Byte) (s : State) : State := { s with mem := s.mem.load .boot 0 (bytes.take 256) }

/-- load_rom (R275): 16 KiB to rom0, the next 16 KiB to rom1, the rest ignored. -/
def loadRom (bytes : List Byte) (s : State) : State :=
  { s with mem := (s.mem.load .rom0 0 (bytes.take 0x4000)).load .rom1 0 ((bytes.drop 0x4000).take 0x4000) }

/-- set_in_boot (R277). -/
def setInBoot (b : Bool) (s : State) : State := { s with inBoot := b }

/-- tile_reset (R278). -/
def hostTileReset (s : State) : State := tileResetAll s

/-- sever (R279): nothing else happens until a request reaches service. -/
def sever (s : State) : State := { s with arb := { s.arb with alive := false } }

/-- A host event other than reset is a step, so a fatal block takes none (R291). -/
def hostEvent (f : State → State) (s : State) : Result := if s.arb.fatal then .fault .fatalLatched else .next (f s)

/-- One move of the driver (R9, R270). -/
def applyMove (m : Move) (s : State) : Result :=
  match m with
  | .submit p w => submit p w s
  | .submitBoth wP wG => submitBoth wP wG s
  | .service => service s
  | .transact p w => transact p w s
  | .tick => tick s
  | .reset => .next (hostReset s)
  | .loadBoot bytes => hostEvent (loadBoot bytes) s
  | .loadRom bytes => hostEvent (loadRom bytes) s
  | .setInBoot b => hostEvent (setInBoot b) s
  | .tileReset => hostEvent hostTileReset s
  | .sever => hostEvent sever s

/-- A move is enabled (R141, R142, R144, R158, R270, R291). -/
def enabled (m : Move) (s : State) : Bool :=
  match m with
  | .reset => true
  | .submit p _ => !s.arb.fatal && !(s.arb.req p).valid
  | .submitBoth _ _ => !s.arb.fatal && !s.arb.reqP.valid && !s.arb.reqG.valid
  | .service => !s.arb.fatal && !s.arb.queue.isEmpty
  | .transact p _ => !s.arb.fatal && !(s.arb.req p).valid
  | .tick => !s.arb.fatal && s.pendingPort?.isNone
  | _ => !s.arb.fatal

/-- The move the driver makes where none has been chosen for it: the free schedule's, if it is enabled; else the block's own
next step, a service if a request is pending and a tick otherwise (R270, U14; log entry 1). -/
def freeMove (s : State) : Move :=
  let m := Config.schedule s.draws
  if enabled m s then m else if s.arb.queue.isEmpty then .tick else .service

/-- The outputs of the step before are gone: they last one step (R8, R151). -/
def beginStep (s : State) : State := { s with arb := { s.arb with replyP := none, replyG := none }, strobes := [] }

/-- The next move and the state it is applied to: the first of those already chosen, or a free one. -/
def nextMove (s : State) : Move × State :=
  match s.moves with
  | m :: rest => (m, { beginStep s with moves := rest })
  | [] => (freeMove s, { beginStep s with draws := s.draws + 1 })

/-- The next move applied. -/
def runNextMove (s : State) : Result := applyMove (nextMove s).1 (nextMove s).2

/-- The moves that start a run under a configuration: the image loads, which come after reset and before the first bus
transaction or tick (R322). -/
def startMoves (c : Config) : List Move :=
  (match c.bootImage with
    | some bytes => [Move.loadBoot bytes]
    | none => []) ++ [Move.loadRom c.romImage]

/-- A request word placed where the arbiter takes its next request: in port P's latch, at the head of the queue, with a
service as the driver's next move (log entry 8). -/
def placeRequest (w : ReqWord) (s : State) : State :=
  let b := s.arb.setReq .portP (latchOf w s.arb.nextStamp)
  { s with
    arb := { b with queue := .portP :: b.queue.filter (· ≠ .portP), nextStamp := b.nextStamp + 1 }
    moves := .service :: s.moves }

/-- One line of the trace syntax (R106), as data. A request line may carry its expected response. -/
inductive TraceLine where
  | request (p : Port) (i : Instr) (expected : Option Rsp)
  | ticks (n : Nat)
  | reset
  | loadBoot (bytes : List Byte)
  | loadRom (bytes : List Byte)
  | setBoot (b : Bool)
  | tileReset
  | sever
  deriving DecidableEq, Repr

/-- The moves a trace line stands for (R106). -/
def traceMoves : TraceLine → List Move
  | .request p i _ => [.transact p (encode i)]
  | .ticks n => List.replicate n .tick
  | .reset => [.reset]
  | .loadBoot bytes => [.loadBoot bytes]
  | .loadRom bytes => [.loadRom bytes]
  | .setBoot b => [.setInBoot b]
  | .tileReset => [.tileReset]
  | .sever => [.sever]

/-- The response a trace line expects, if it names one, is the one delivered (R106). -/
def traceAnswered (t : TraceLine) (s : State) : Bool :=
  match t with
  | .request p _ (some r) => s.arb.reply p = some r
  | _ => true

end Sys2Proof.Machine
end

