-- ==== Sys2Proof/Machine/Step.lean ====
section
/-! DEFINITION. One step: the driver's next move (R9, R270). -/

namespace Sys2Proof.Machine

/-- One atomic transition of the whole block (R9). -/
def step (s : State) : Host.Outcome State Fault Refusal := runNextMove s

/-- The state with a request placed where the next step takes it from. -/
def State.withFetchWord (s : State) (nbits w : Nat) : State := placeRequest (BitVec.ofNat 34 (w % 2 ^ nbits)) s

end Sys2Proof.Machine
end

