-- ==== Sys2Proof/Safety.lean ====
section
/-! DEFINITION. What counts as a safe state and a safe run: the invariants of R34 with the canonical form of the tables, the
coherence of the tile cache (R195), the progress of the sprite scan (R212), and the words claims use for runs of ticks. -/

namespace Sys2Proof.Machine

/-- A mode's budget of ticks (R172 to R175). -/
def modeBudget : Mode → Nat
  | .oamScan => tOam
  | .pixelTransfer => tXfer
  | .hBlank => tHblank
  | .vBlank => tLine

/-- R34 a, b, c: the line in range, the counter below its mode's budget, VBlank exactly on lines 144 and up. -/
abbrev Timer.Ok (t : Timer) : Prop :=
  t.line.toNat ≤ lastLine ∧ t.counter.toNat < modeBudget t.mode ∧ (t.mode = .vBlank ↔ nVisible ≤ t.line.toNat)

/-- R34 d, e: the valid slots are the first `count`, at most 16; the output column is at most 160. -/
abbrev Pipeline.Ok (q : Pipeline) : Prop :=
  (∀ k : Fin 16, q.fifo[k].valid = decide (k.val < q.count.toNat)) ∧ q.count.toNat ≤ 16 ∧ q.outCol.toNat ≤ lineW

/-- R34 f: the visible list is strictly rising and has at most ten entries (each is below 40 by its type). -/
abbrev SpriteTable.Ok (t : SpriteTable) : Prop := t.vis.Pairwise (· < ·) ∧ t.vis.length ≤ spritesPerLine

/-- R34 g, h: a port's latch is valid exactly while the port is in the queue, which lists no port twice (R142); `fatal` is 0
exactly when the cause is NONE. -/
abbrev Arbiter.Ok (b : Arbiter) : Prop :=
  b.queue.Nodup ∧ (b.reqP.valid = true ↔ Port.portP ∈ b.queue) ∧ (b.reqG.valid = true ↔ Port.portG ∈ b.queue) ∧
    (b.fatal = false ↔ b.cause = .noCause)

/-- Every table is in canonical form, the configured initial content too. -/
abbrev State.TablesOk (s : State) : Prop :=
  s.mem.wf = true ∧ s.cfg.ramInit.wf = true ∧ TileRows.wf s.tile = true ∧ Line.wf s.pipe.linebuf = true ∧
    ∀ l : Fin 144, Line.wf s.fb[l] = true

/-- The invariants of R34 and the canonical form. -/
abbrev State.Inv (s : State) : Prop := s.timer.Ok ∧ s.pipe.Ok ∧ s.sprites.Ok ∧ s.arb.Ok ∧ s.TablesOk

/-- During PixelTransfer every listed sprite is visible on the current line (R214, R241). -/
abbrev State.SelectedVisible (s : State) : Prop :=
  s.timer.mode = .pixelTransfer → ∀ n ∈ s.sprites.vis, spriteVisible s.sprites.recs[n] s.timer.line.toNat = true

/-- The tile cache agrees with video memory on every row (R195, first alternative). -/
def State.TilesAgree (s : State) : Prop :=
  ∀ t < nTiles, ∀ r < 8, s.tileRow t r = joinBytes (s.mem.read .vram (16 * t + 2 * r)) (s.mem.read .vram (16 * t + 2 * r + 1))

/-- Word k of the sprite copy: the two bytes scanStep stores for c = k (R212). -/
def SpriteTable.scannedWord (t : SpriteTable) (k : Nat) : Word :=
  match t.recs[k / 2]? with
  | some r => if k % 2 = 0 then joinBytes r.x r.y else joinBytes r.flags r.tile
  | none => 0

/-- Word k of sprite attribute memory, little-endian (R66, R96). -/
def State.oamWord (s : State) (k : Nat) : Word := joinBytes (s.mem.read .oam (2 * k + 1)) (s.mem.read .oam (2 * k))

/-- How many words of attribute memory the copy must already agree on: those scanned so far in OAMScan, all 80 in
PixelTransfer (R212, R325). -/
def State.scannedCount (s : State) : Nat :=
  match s.timer.mode with
  | .oamScan => s.timer.counter.toNat
  | .pixelTransfer => 80
  | .hBlank => 0
  | .vBlank => 0

/-- The sprite copy agrees with attribute memory on every word scanned so far, under a lock that covers both modes in which
the copy is used (R70, R212). -/
def State.ScanAgrees (s : State) : Prop :=
  s.cfg.oamLockModes.contains .oamScan = true → s.cfg.oamLockModes.contains .pixelTransfer = true →
    ∀ k < s.scannedCount, s.sprites.scannedWord k = s.oamWord k

/-- A state in which the graphics actor runs on its own: nothing fatal, the channel alive, no request pending, and the
invariants hold. -/
abbrev State.Running (s : State) : Prop :=
  s.arb.fatal = false ∧ s.arb.alive = true ∧ s.arb.queue = [] ∧ s.Inv ∧ s.SelectedVisible

/-- What serving a request leaves unchanged besides the storage and the tile cache, when the block goes on: everything but
the served port's reply and the valid bit of its latch (R71, R144, R151, R158, R177). -/
def ServedFrame (s t : State) : Prop :=
  t.cfg = s.cfg ∧ t.inBoot = s.inBoot ∧ t.timer = s.timer ∧ t.sprites = s.sprites ∧ t.pipe = s.pipe ∧ t.fb = s.fb ∧
    t.strobes = s.strobes ∧ t.moves = s.moves ∧ t.draws = s.draws ∧ t.arb.queue = s.arb.queue ∧
    t.arb.alive = s.arb.alive ∧ t.arb.fatal = s.arb.fatal ∧ t.arb.cause = s.arb.cause ∧ t.arb.port = s.arb.port ∧
    t.arb.nextStamp = s.arb.nextStamp ∧
    (∀ q, t.arb.req q = if q = s.arb.port then { s.arb.req q with valid := false } else s.arb.req q) ∧
    ∀ q, q ≠ s.arb.port → t.arb.reply q = s.arb.reply q

/-- The response of a serviced operation, MEM_ERROR for an unsupported access under STRICT_UNSUPPORTED (R150). -/
def rspGiven (strict : Bool) (st : Status) (u : Bool) (data : Word) : Rsp :=
  if u = true ∧ strict = true then { status := .memError, unsup := true, data := 0 }
  else { status := st, unsup := u, data := data }

/-- The bus addresses a write stores to (R127): video memory, external RAM, working RAM and its shadow, zero-page RAM, and
sprite attribute memory while it is not locked. -/
def State.writable (s : State) (a : Addr) : Prop :=
  (0x8000 ≤ a.toNat ∧ a.toNat ≤ 0xFDFF) ∨ 0xFF80 ≤ a.toNat ∨
    (0xFE00 ≤ a.toNat ∧ a.toNat ≤ 0xFE9F ∧ s.oamLocked = false)

/-- No request is outstanding on either port (R34 g, R142). -/
abbrev State.NothingPending (s : State) : Prop :=
  s.arb.reqP.valid = false ∧ s.arb.reqG.valid = false ∧ s.arb.queue = []

/-- What a read answered on port G leaves of the arbiter: all but that port's latch and reply, the served port and the next
stamp (R144, R151). -/
def Arbiter.AfterReadG (b c : Arbiter) : Prop :=
  c.reqG.valid = false ∧
    c = { b with reqG := c.reqG, replyG := c.replyG, port := .portG, nextStamp := b.nextStamp + 1 }

/-- The graphics actor can read its port at once: nothing fatal, the channel alive, nothing pending (R142, R152). -/
abbrev State.PortGIdle (s : State) : Prop :=
  s.arb.fatal = false ∧ s.arb.alive = true ∧ s.arb.queue = [] ∧ s.arb.reqG.valid = false

/-- The byte a port-G ReadByte returns: the data field of its response (R8, R146, R150). -/
def State.busByteG (s : State) (a : Addr) : Byte :=
  if (readByte s .portG a).2 = true ∧ s.cfg.strict = true then 0 else (readByte s .portG a).1

/-- Slot k < 8 under the overlay of sprite n (R240, R241): a background slot takes the sprite's pixel, where that is not
transparent, and the tag of its palette; any other slot is kept. -/
def State.overlaidSlot (s : State) (n : Fin 40) (k : Fin 16) : Slot :=
  let r := s.sprites.recs[n]
  let d := s.timer.line.toNat + 16 - r.y.toNat
  let row := s.tileRow r.tile.toNat (if r.flags.getLsbD 6 then 7 - d else d)
  let c := pix row (if r.flags.getLsbD 5 then 7 - k.val else k.val)
  if s.pipe.fifo[k].src = .bg ∧ c ≠ 0 then
    { s.pipe.fifo[k] with src := if r.flags.getLsbD 4 then .spr1 else .spr0, code := c }
  else s.pipe.fifo[k]

/-- Graphics ticks in a row. -/
def runTicks : Nat → State → Result
  | 0, s => .next s
  | n + 1, s => thenRun (tick s) (runTicks n)

/-- The next state of an outcome, if there is one. -/
def nextState? : Result → Option State
  | .next s => some s
  | .fault _ => none
  | .refused _ => none

/-- The timer n ticks after a timer that stands at the start of line 0 (R176). -/
def timerAfter (n : Nat) : Timer :=
  let k := n % 70224
  let l := k / 456
  let c := k % 456
  if nVisible ≤ l then ⟨.vBlank, BitVec.ofNat 9 c, BitVec.ofNat 8 l⟩
  else if c < 80 then ⟨.oamScan, BitVec.ofNat 9 c, BitVec.ofNat 8 l⟩
  else if c < 252 then ⟨.pixelTransfer, BitVec.ofNat 9 (c - 80), BitVec.ofNat 8 l⟩
  else ⟨.hBlank, BitVec.ofNat 9 (c - 252), BitVec.ofNat 8 l⟩

/-- The background tiles enqueued in the first n dots of a line: on dot 5 and on dots 11 + 8k, 21 in all (R245). -/
def lineTiles (n : Nat) : Nat := if n < 6 then 0 else if n < 12 then 1 else min (2 + (n - 12) / 8) 21

/-- The pixels pushed in the first n dots of a line: one on each of dots 11 to 170 (R245). -/
def lineColumn (n : Nat) : Nat := min (n - 11) 160

/-- The dots run since the last enqueue, or since the start of the line (R245). -/
def lineFetchDots (n : Nat) : Nat := if n < 6 then n else if n < 12 then n - 6 else n - min (12 + (n - 12) / 8 * 8) 164

/-- Where the fetcher stands d dots after its sub-cycle began: two dots a step, then waiting in ENQ (R233). -/
def fetcherAfter (d : Nat) : FState × Bool :=
  match d with
  | 0 => (.resolve, false)
  | 1 => (.resolve, true)
  | 2 => (.low, false)
  | 3 => (.low, true)
  | 4 => (.high, false)
  | 5 => (.high, true)
  | _ => (.enq, false)

/-- In PixelTransfer the pipeline stands where the timeline of R245 puts it after as many dots as the counter says. -/
def State.OnSchedule (s : State) : Prop :=
  s.arb.fatal = false → s.timer.mode = .pixelTransfer →
    s.pipe.outCol.toNat = lineColumn s.timer.counter.toNat ∧
    s.pipe.count.toNat = 8 * lineTiles s.timer.counter.toNat - lineColumn s.timer.counter.toNat ∧
    s.pipe.fetchX.toNat = lineTiles s.timer.counter.toNat ∧
    (s.pipe.fstate, s.pipe.phase) = fetcherAfter (lineFetchDots s.timer.counter.toNat)

end Sys2Proof.Machine
end

