-- ==== Sys2Proof/Certificates/Slice0/Obligations.lean ====
section
/-! DEFINITION. The statements about the block, each with the rule it formalises. -/

open Sys2Proof Sys2Proof.Machine

/-! Encodings -/

/-- R91, R92: the decoder reads back every instruction the encoder writes, with every operand value. -/
def Obligations.DecodeOfEncode : Prop := ∀ i : Instr, decode (encode i) = i

/-- R92, R104 (a), (b): every 34-bit word fits exactly one row of the table, its operation is that row's, and two words with
the same operation, address and used payload bits are the same request. -/
def Obligations.EveryWordIsOneRow : Prop :=
  ∀ w : ReqWord,
    (opRows.filter fun r => r.fits w).length = 1 ∧
      (∀ r ∈ opRows, r.fits w = true → (encode (decode w)) &&& r.mask = r.pattern) ∧
      ∀ w' : ReqWord, decode w = decode w' ↔
        reqOp w = reqOp w' ∧ reqAddr w = reqAddr w' ∧
          (reqOp w = 2 → (reqData w).setWidth 8 = (reqData w').setWidth 8) ∧ (reqOp w = 3 → reqData w = reqData w')

/-- R93, R94: a response and its 19-bit word determine each other, with each field in its place; R94, R95, R100 to R103: the
code numbers of statuses, fatal causes, modes, fetcher states and sources, and the words of a slot and of a pixel. -/
def Obligations.ResponseWordRoundTrip : Prop :=
  (∀ r : Rsp, decodeRsp r.encode = r ∧
      r.encode.toNat = 2 ^ 17 * r.status.code.toNat + 2 ^ 16 * r.unsup.toNat + r.data.toNat) ∧
    (∀ w : RspWord, (decodeRsp w).encode = w) ∧
    [Status.okData, .okNoData, .memError, .malformed].map (fun x => x.code.toNat) = [0, 1, 2, 3] ∧
    [FatalCause.noCause, .malformedRequest, .channelSevered, .timingLine, .timingCounter, .overlayEmptySlot].map
        (fun x => x.code.toNat) = [0, 1, 2, 3, 4, 5] ∧
    [Mode.oamScan, .pixelTransfer, .hBlank, .vBlank].map (fun x => x.code.toNat) = [0, 1, 2, 3] ∧
    [FState.resolve, .low, .high, .enq].map (fun x => x.code.toNat) = [0, 1, 2, 3] ∧
    [Src.bg, .spr0, .spr1].map (fun x => x.code.toNat) = [0, 1, 2] ∧
    (∀ x : Slot, x.bits.toNat = 16 * x.valid.toNat + 4 * x.src.code.toNat + x.code.toNat) ∧
    ∀ x : Pixel, x.bits.toNat = 4 * x.src.code.toNat + x.code.toNat

/-- R91, R92 and the worked words of 95_test_vectors.md V1, V2, T1. -/
def Obligations.WorkedWordsDecode : Prop :=
  decode 0x2A12C0093#34 = .wb 0xA12C 0x93 ∧ decode 0x0A12C0000#34 = .rb 0xA12C ∧
    decode 0x3A12C9383#34 = .ww 0xA12C 0x9383 ∧ decode 0x1A12C0000#34 = .rw 0xA12C ∧
    decode 0x2A12CFF93#34 = .wb 0xA12C 0x93

/-- R154: the raw form is the structured form seen through the status map; `unsup` is not visible in it. -/
def Obligations.RawFormMap : Prop :=
  (∀ a u d, (RawCall.read a).result ⟨.okData, u, d⟩ = .payloadByte (d.setWidth 8)) ∧
    (∀ a u d, (RawCall.readWord a).result ⟨.okData, u, d⟩ = .payloadWord d) ∧
    (∀ (c : RawCall) (u : Bool) (d : Word), c.result ⟨.okNoData, u, d⟩ = .payloadNone ∧
      c.result ⟨.memError, u, d⟩ = .memoryError ∧ c.result ⟨.malformed, u, d⟩ = .malformedError) ∧
    (∀ (c : RawCall) (r : Rsp) (b : Bool), c.result { r with unsup := b } = c.result r) ∧
    (∀ a, (RawCall.read a).expand = .rb a) ∧ (∀ a, (RawCall.readWord a).expand = .rw a) ∧
    (∀ a v, (RawCall.write a v).expand = .wb a v) ∧ ∀ a v, (RawCall.writeWord a v).expand = .ww a v

/-! AddressMap and TileStore -/

/-- R61: the eleven regions, the cell each selects, and that every address selects one existing cell or a sink. -/
def Obligations.DecodeLadder : Prop :=
  ∀ (b : Bool) (a : Addr),
    (a.toNat ≤ 0x00FF → b = true → regionOf b a = .boot ∧ cellOf (regionOf b a) a = some (.boot, a.toNat)) ∧
    (a.toNat ≤ 0x3FFF → (0x00FF < a.toNat ∨ b = false) →
      regionOf b a = .rom0 ∧ cellOf (regionOf b a) a = some (.rom0, a.toNat)) ∧
    (0x4000 ≤ a.toNat → a.toNat ≤ 0x7FFF →
      regionOf b a = .rom1 ∧ cellOf (regionOf b a) a = some (.rom1, a.toNat - 0x4000)) ∧
    (0x8000 ≤ a.toNat → a.toNat ≤ 0x9FFF →
      regionOf b a = .video ∧ cellOf (regionOf b a) a = some (.vram, (a &&& 0x1FFF#16).toNat)) ∧
    (0xA000 ≤ a.toNat → a.toNat ≤ 0xBFFF →
      regionOf b a = .externalRam ∧ cellOf (regionOf b a) a = some (.eram, (a &&& 0x1FFF#16).toNat)) ∧
    (0xC000 ≤ a.toNat → a.toNat ≤ 0xDFFF →
      regionOf b a = .workRam ∧ cellOf (regionOf b a) a = some (.wram, (a &&& 0x1FFF#16).toNat)) ∧
    (0xE000 ≤ a.toNat → a.toNat ≤ 0xFDFF →
      regionOf b a = .workShadow ∧ cellOf (regionOf b a) a = some (.wram, (a &&& 0x1FFF#16).toNat)) ∧
    (0xFE00 ≤ a.toNat → a.toNat ≤ 0xFE9F →
      regionOf b a = .spriteMemory ∧ cellOf (regionOf b a) a = some (.oam, a.toNat - 0xFE00)) ∧
    (0xFEA0 ≤ a.toNat → a.toNat ≤ 0xFEFF → regionOf b a = .zeroSink ∧ cellOf (regionOf b a) a = none) ∧
    (0xFF00 ≤ a.toNat → a.toNat ≤ 0xFF7F → regionOf b a = .ioSink ∧ cellOf (regionOf b a) a = none) ∧
    (0xFF80 ≤ a.toNat → regionOf b a = .zeroPage ∧ cellOf (regionOf b a) a = some (.zram, (a &&& 0x7F#16).toNat)) ∧
    ∀ c, cellOf (regionOf b a) a = some c → c.2 < arrSize c.1

/-- R121: the value and the `unsup` bit of a byte read, region by region; R6, R63: an I/O read gives 0x00 where the
configuration lists nothing else. -/
def Obligations.ReadByteByRegion : Prop :=
  ∀ (s : State) (p : Port) (a : Addr),
    (a.toNat ≤ 0x00FF → s.inBoot = true → readByte s p a = (s.mem.read .boot a.toNat, false)) ∧
    (a.toNat ≤ 0x3FFF → (0x00FF < a.toNat ∨ s.inBoot = false) → readByte s p a = (s.mem.read .rom0 a.toNat, false)) ∧
    (0x4000 ≤ a.toNat → a.toNat ≤ 0x7FFF → readByte s p a = (s.mem.read .rom1 (a.toNat - 0x4000), false)) ∧
    (0x8000 ≤ a.toNat → a.toNat ≤ 0x9FFF → readByte s p a = (s.mem.read .vram (a &&& 0x1FFF#16).toNat, false)) ∧
    (0xA000 ≤ a.toNat → a.toNat ≤ 0xBFFF → readByte s p a = (s.mem.read .eram (a &&& 0x1FFF#16).toNat, false)) ∧
    (0xC000 ≤ a.toNat → a.toNat ≤ 0xFDFF → readByte s p a = (s.mem.read .wram (a &&& 0x1FFF#16).toNat, false)) ∧
    (0xFE00 ≤ a.toNat → a.toNat ≤ 0xFE9F → readByte s p a =
      if s.oamLocked = true ∧ p = .portP then (0, true) else (s.mem.read .oam (a.toNat - 0xFE00), false)) ∧
    (0xFEA0 ≤ a.toNat → a.toNat ≤ 0xFEFF → readByte s p a = (0, false)) ∧
    (0xFF00 ≤ a.toNat → a.toNat ≤ 0xFF7F → readByte s p a = (ioReadDefault s.cfg a, true)) ∧
    (s.cfg.ioRead = [] → ioReadDefault s.cfg a = 0) ∧
    (0xFF80 ≤ a.toNat → readByte s p a = (s.mem.read .zram (a &&& 0x7F#16).toNat, false))

/-- R122: the effect and the `unsup` bit of a byte write, region by region; nothing else of the state changes. -/
def Obligations.WriteByteByRegion : Prop :=
  ∀ (s : State) (a : Addr) (v : Byte),
    (a.toNat ≤ 0x7FFF → writeByte a v s = s ∧ s.writeUnsup a = true) ∧
    (0x8000 ≤ a.toNat → a.toNat ≤ 0x9FFF →
      writeByte a v s = writeVideoByte (a &&& 0x1FFF#16).toNat v s ∧ s.writeUnsup a = false) ∧
    (0xA000 ≤ a.toNat → a.toNat ≤ 0xBFFF →
      writeByte a v s = { s with mem := s.mem.write .eram (a &&& 0x1FFF#16).toNat v } ∧ s.writeUnsup a = false) ∧
    (0xC000 ≤ a.toNat → a.toNat ≤ 0xFDFF →
      writeByte a v s = { s with mem := s.mem.write .wram (a &&& 0x1FFF#16).toNat v } ∧ s.writeUnsup a = false) ∧
    (0xFE00 ≤ a.toNat → a.toNat ≤ 0xFE9F → s.oamLocked = true → writeByte a v s = s ∧ s.writeUnsup a = true) ∧
    (0xFE00 ≤ a.toNat → a.toNat ≤ 0xFE9F → s.oamLocked = false →
      writeByte a v s = { s with mem := s.mem.write .oam (a.toNat - 0xFE00) v } ∧ s.writeUnsup a = false) ∧
    (0xFEA0 ≤ a.toNat → a.toNat ≤ 0xFEFF → writeByte a v s = s ∧ s.writeUnsup a = false) ∧
    (0xFF00 ≤ a.toNat → a.toNat ≤ 0xFF7F → writeByte a v s = s ∧ s.writeUnsup a = true) ∧
    (0xFF80 ≤ a.toNat →
      writeByte a v s = { s with mem := s.mem.write .zram (a &&& 0x7F#16).toNat v } ∧ s.writeUnsup a = false)

/-- R62: the shadow's cell is the primary address's cell, its reads and writes are the primary's, with `unsup` = 0, and it
covers the indices 0x0000 to 0x1DFF. -/
def Obligations.ShadowAliasesWorkRam : Prop :=
  ∀ (s : State) (p : Port) (a : Addr) (v : Byte), 0xE000 ≤ a.toNat → a.toNat ≤ 0xFDFF →
    cellOf (s.region a) a = some (.wram, (a &&& 0x1FFF#16).toNat) ∧
    cellOf (s.region a) a = cellOf (s.region (a - 0x2000)) (a - 0x2000) ∧
    (a &&& 0x1FFF#16).toNat ≤ 0x1DFF ∧ a - 0x2000 = 0xC000 + (a &&& 0x1FFF#16) ∧
    readByte s p a = readByte s p (a - 0x2000) ∧ (readByte s p a).2 = false ∧
    writeByte a v s = writeByte (a - 0x2000) v s ∧ s.writeUnsup a = false

/-- V1 of 95_test_vectors.md, R121, R122: a byte written to a writable address is read back from it, by either port. -/
def Obligations.ByteRoundTrip : Prop :=
  ∀ (s : State) (p : Port) (a : Addr) (v : Byte), s.writable a →
    readByte (writeByte a v s) p a = (v, false)

/-- R66, R123, R124, V2: a word written where both bytes are writable is read back, low byte at the lower address. -/
def Obligations.WordRoundTrip : Prop :=
  ∀ (s : State) (p : Port) (a : Addr) (w : Word), a ≠ 0xFFFF → s.writable a → s.writable (a + 1) →
    readWord (writeWord a w s) p a = (w, false) ∧
    readByte (writeWord a w s) p a = (w.setWidth 8, false) ∧
    readByte (writeWord a w s) p (a + 1) = (w.extractLsb' 8 8, false)

/-- R191: writeVideoByte stores the byte; below TILE_BOUNDARY it recomputes the one affected row from the pair read after
the store, and no other row; at or above it no row changes. -/
def Obligations.VideoWriteRecomputesRow : Prop :=
  ∀ (s : State) (k : Nat) (v : Byte), k < 0x2000 →
    (writeVideoByte k v s).mem.read .vram k = v ∧
    (∀ b j, (b, j) ≠ (Arr.vram, k) → (writeVideoByte k v s).mem.read b j = s.mem.read b j) ∧
    (k < 0x1800 → (writeVideoByte k v s).tileRow (k / 16) (k % 16 / 2) =
      (writeVideoByte k v s).mem.read .vram (k - k % 2) ++ (writeVideoByte k v s).mem.read .vram (k - k % 2 + 1)) ∧
    (∀ t r, r < 8 → (0x1800 ≤ k ∨ (t, r) ≠ (k / 16, k % 16 / 2)) →
      (writeVideoByte k v s).tileRow t r = s.tileRow t r) ∧
    writeVideoByte k v s = { s with mem := (writeVideoByte k v s).mem, tile := (writeVideoByte k v s).tile }

/-- R67: a word written at an even tile-data address leaves the byte-swapped word in its tile row. -/
def Obligations.TileRowIsByteSwapped : Prop :=
  ∀ (s : State) (k : Nat) (w : Word), k < 0xC00 →
    (writeWord (BitVec.ofNat 16 (0x8000 + 2 * k)) w s).tileRow (k / 8) (k % 8) = w.setWidth 8 ++ w.extractLsb' 8 8

/-- R71: writing the same value twice leaves the same state as writing it once (for a word, every cell and tile row). -/
def Obligations.WritesAreIdempotent : Prop :=
  (∀ (s : State) (a : Addr) (v : Byte), writeByte a v (writeByte a v s) = writeByte a v s) ∧
    ∀ (s : State) (a : Addr) (w : Word), a ≠ 0xFFFF →
      (∀ b k, (writeWord a w (writeWord a w s)).mem.read b k = (writeWord a w s).mem.read b k) ∧
      ∀ t r, r < 8 → (writeWord a w (writeWord a w s)).tileRow t r = (writeWord a w s).tileRow t r

/-- R195: every step but tile_reset keeps the tile cache in agreement with video memory, where RAM_INIT gives zero tile
data. -/
def Obligations.TileCacheStaysCoherent : Prop :=
  ∀ s t : State, s.TilesAgree → (∀ k < 0x1800, s.cfg.ramInit.read .vram k = 0) → (nextMove s).1 ≠ .tileReset →
    step s = .next t → t.TilesAgree

/-- R98, R194: the pixel code of a row word, and the worked rows; R99, R244: the colour name of an output pixel, which its
source does not change, and the default table. -/
def Obligations.PixelDecode : Prop :=
  (∀ (row : Word) (x : Nat), (pix row x).toNat = 2 * (row.getLsbD (15 - x)).toNat + (row.getLsbD (7 - x)).toNat) ∧
    (List.range 8).map (fun x => (pix 0x7C7C x).toNat) = [0, 3, 3, 3, 3, 3, 0, 0] ∧
    (List.range 8).map (fun x => (pix 0x00C6 x).toNat) = [1, 1, 0, 0, 0, 1, 1, 0] ∧
    (List.range 8).map (fun x => (pix 0xC600 x).toNat) = [2, 2, 0, 0, 0, 2, 2, 0] ∧
    (∀ (c : Config) (x : Src), ([0, 1, 2, 3] : List (BitVec 2)).map (fun k => pixelShade c ⟨x, k⟩) =
      [c.shades.code0, c.shades.code1, c.shades.code2, c.shades.code3]) ∧
    ∀ x : Src, ([0, 1, 2, 3] : List (BitVec 2)).map (fun k => pixelShade Config.default ⟨x, k⟩) =
      [.black, .lightGray, .darkGray, .white]

/-! The four bus operations -/

/-- R146, R150: ReadByte completes on a live block, for either port and every address; it changes nothing but the reply. -/
def Obligations.ReadByteCompletes : Prop :=
  ∀ (a : Addr) (s : State), s.arb.fatal = false → s.arb.alive = true →
    ∃ t, exec (.rb a) s = .next t ∧
      t.arb.reply s.arb.port = some (rspGiven s.cfg.strict .okData (readByte s s.arb.port a).2
        ((readByte s s.arb.port a).1.setWidth 16)) ∧
      t.mem = s.mem ∧ t.tile = s.tile ∧ ServedFrame s t

/-- R147, R150, R123: ReadWord completes at every address but 0xFFFF, low byte from the lower address. -/
def Obligations.ReadWordCompletes : Prop :=
  ∀ (a : Addr) (s : State), a ≠ 0xFFFF → s.arb.fatal = false → s.arb.alive = true →
    ∃ t, exec (.rw a) s = .next t ∧
      t.arb.reply s.arb.port = some (rspGiven s.cfg.strict .okData
        ((readByte s s.arb.port a).2 || (readByte s s.arb.port (a + 1)).2)
        ((readByte s s.arb.port (a + 1)).1 ++ (readByte s s.arb.port a).1)) ∧
      t.mem = s.mem ∧ t.tile = s.tile ∧ ServedFrame s t

/-- R148, R150, R122: WriteByte completes at every address; the cell storeCell computes holds the byte, every other cell is
unchanged, and the tile rows are those of the byte write. -/
def Obligations.WriteByteCompletes : Prop :=
  ∀ (a : Addr) (v : Byte) (s : State), s.arb.fatal = false → s.arb.alive = true →
    ∃ t, exec (.wb a v) s = .next t ∧
      t.arb.reply s.arb.port = some (rspGiven s.cfg.strict .okNoData (s.writeUnsup a) 0) ∧
      (∀ b k, s.storeCell a = some (b, k) → t.mem.read b k = v) ∧
      (∀ b k, s.storeCell a ≠ some (b, k) → t.mem.read b k = s.mem.read b k) ∧
      t.tile = (writeByte a v s).tile ∧ ((∀ k, s.storeCell a ≠ some (.vram, k)) → t.tile = s.tile) ∧ ServedFrame s t

/-- R149, R150, R124: WriteWord completes at every address but 0xFFFF; both halves are attempted, each cell storeCell
computes holds its byte, every other cell is unchanged. -/
def Obligations.WriteWordCompletes : Prop :=
  ∀ (a : Addr) (w : Word) (s : State), a ≠ 0xFFFF → s.arb.fatal = false → s.arb.alive = true →
    ∃ t, exec (.ww a w) s = .next t ∧
      t.arb.reply s.arb.port =
        some (rspGiven s.cfg.strict .okNoData (s.writeUnsup a || s.writeUnsup (a + 1)) 0) ∧
      (∀ b k, s.storeCell a = some (b, k) → t.mem.read b k = w.setWidth 8) ∧
      (∀ b k, s.storeCell (a + 1) = some (b, k) → t.mem.read b k = w.extractLsb' 8 8) ∧
      (∀ b k, s.storeCell a ≠ some (b, k) → s.storeCell (a + 1) ≠ some (b, k) → t.mem.read b k = s.mem.read b k) ∧
      t.tile = (writeByte (a + 1) (w.extractLsb' 8 8) (writeByte a (w.setWidth 8) s)).tile ∧
      ((∀ k, s.storeCell a ≠ some (.vram, k)) → (∀ k, s.storeCell (a + 1) ≠ some (.vram, k)) → t.tile = s.tile) ∧
      ServedFrame s t

/-- R145, R292: a word operation at 0xFFFF on a live block answers MALFORMED and sets the latch; no cell changes. A request
of any other form is not malformed: it never answers MALFORMED. -/
def Obligations.MalformedRequestIsFatal : Prop :=
  (∀ (i : Instr) (s : State), (i = .rw 0xFFFF ∨ ∃ w, i = .ww 0xFFFF w) → s.arb.fatal = false → s.arb.alive = true →
    ∃ t, exec i s = .next t ∧ t.arb.fatal = true ∧ t.arb.cause = .malformedRequest ∧
      t.arb.reply s.arb.port = some { status := .malformed, unsup := false, data := 0 } ∧
      (t.arb.req s.arb.port).valid = false ∧ t = { s with arb := t.arb }) ∧
    ∀ (i : Instr) (s t : State), i ≠ .rw 0xFFFF → (∀ w, i ≠ .ww 0xFFFF w) → s.arb.alive = true → exec i s = .next t →
      t.arb.fatal = false ∧ ∃ r, t.arb.reply s.arb.port = some r ∧ r.status ≠ .malformed

/-- R156, R293, R300: every operation on a severed channel, a malformed one too, sets the latch with CHANNEL_SEVERED; it is
not executed and no response is delivered. -/
def Obligations.SeveredRequestIsFatal : Prop :=
  ∀ (i : Instr) (s : State), s.arb.fatal = false → s.arb.alive = false →
    ∃ t, exec i s = .next t ∧ t.arb.fatal = true ∧ t.arb.cause = .channelSevered ∧
      t.arb.replyP = s.arb.replyP ∧ t.arb.replyG = s.arb.replyG ∧ t = { s with arb := t.arb }

/-- R291, R155: once `fatal` is set no operation is executed and no move but reset is a step. The fault's name is the
model's (log entry 13). -/
def Obligations.FatalStopsEverything : Prop :=
  ∀ s : State, s.arb.fatal = true →
    (∀ i : Instr, exec i s = .fault .fatalLatched) ∧
    (∀ m : Move, m ≠ .reset → applyMove m s = .fault .fatalLatched) ∧ ∃ t, applyMove .reset s = .next t ∧ t.arb.fatal = false

/-- R297: `unsup` is 1 exactly for these accesses, and for a word access if it holds for either byte. -/
def Obligations.UnsupExactly : Prop :=
  ∀ (s : State) (p : Port) (a : Addr),
    ((readByte s p a).2 = true ↔
      (0xFE00 ≤ a.toNat ∧ a.toNat ≤ 0xFE9F ∧ s.oamLocked = true ∧ p = .portP) ∨
        (0xFF00 ≤ a.toNat ∧ a.toNat ≤ 0xFF7F)) ∧
    (s.writeUnsup a = true ↔
      a.toNat ≤ 0x7FFF ∨ (0xFE00 ≤ a.toNat ∧ a.toNat ≤ 0xFE9F ∧ s.oamLocked = true) ∨
        (0xFF00 ≤ a.toNat ∧ a.toNat ≤ 0xFF7F)) ∧
    (readWord s p a).2 = ((readByte s p a).2 || (readByte s p (a + 1)).2) ∧
    s.writeWordUnsup a = (s.writeUnsup a || s.writeUnsup (a + 1))

/-- R93, R145, R150, R298: every response a step delivers is a well-formed one: no data unless OK_DATA, MEM_ERROR only under
STRICT_UNSUPPORTED and with `unsup`, MALFORMED only with the latch set. -/
def Obligations.ResponsesAreWellFormed : Prop :=
  ∀ s t : State, step s = .next t → ∀ (p : Port) (r : Rsp), t.arb.reply p = some r →
    (r.status ≠ .okData → r.data = 0) ∧ (r.status = .memError → s.cfg.strict = true ∧ r.unsup = true) ∧
      (r.status = .malformed → r.unsup = false ∧ t.arb.fatal = true ∧ t.arb.cause = .malformedRequest)

/-! The arbiter -/

/-- R141: submit fills the port's latch, appends the port to the queue, and changes nothing else but the arrival stamps,
which are the model's numbers (log entry 6). -/
def Obligations.SubmitFillsLatch : Prop :=
  ∀ (p : Port) (w : ReqWord) (s : State), s.arb.fatal = false → (s.arb.req p).valid = false →
    ∃ t, applyMove (.submit p w) s = .next t ∧
      (t.arb.req p).valid = true ∧ (t.arb.req p).op = reqOp w ∧ (t.arb.req p).addr = reqAddr w ∧
      (t.arb.req p).wdata = reqData w ∧ (∀ q, q ≠ p → t.arb.req q = s.arb.req q) ∧
      t = { s with
        arb := { s.arb with
          reqP := t.arb.reqP
          reqG := t.arb.reqG
          queue := s.arb.queue ++ [p]
          nextStamp := t.arb.nextStamp } }

/-- R142, R144, R158, U19: a submit on a blocked port, a tick while a request is outstanding and a service with nothing
pending are not enabled; the model's faults of those names (log entries 13, 17). -/
def Obligations.BlockedStepsNotEnabled : Prop :=
  ∀ s : State, s.arb.fatal = false →
    (∀ p w, (s.arb.req p).valid = true → applyMove (.submit p w) s = .fault (.portBlocked p) ∧
      applyMove (.transact p w) s = .fault (.portBlocked p)) ∧
    (s.arb.reqG.valid = true → applyMove .tick s = .fault (.portBlocked .portG)) ∧
    (s.arb.reqG.valid = false → s.arb.reqP.valid = true → applyMove .tick s = .fault (.portBlocked .portP)) ∧
    (s.arb.queue = [] → applyMove .service s = .fault .nothingPending)

/-- R9, R270: a step is the driver's next move, on the state with that move taken and the last step's outputs gone; R170: the
tick move is the graphics tick; R144: a step whose move is a service runs the decoded request at the head of the queue, on
the state with the queue popped and the port served. The fields of moves, served port and outputs, and the free move, are
the model's (log entries 1, 4, 5). -/
def Obligations.StepRunsServicedRequest : Prop :=
  (∀ (s : State) (m : Move) (ms : List Move), s.moves = m :: ms →
      step s = applyMove m
        { s with moves := ms, strobes := [], arb := { s.arb with replyP := none, replyG := none } }) ∧
    (∀ s : State, s.moves = [] →
      step s = applyMove (freeMove s)
        { s with draws := s.draws + 1, strobes := [], arb := { s.arb with replyP := none, replyG := none } }) ∧
    (∀ s : State, applyMove .tick s = tick s) ∧
    ∀ (s : State) (ms : List Move) (p : Port) (q : List Port), s.moves = .service :: ms → s.arb.queue = p :: q →
      s.arb.fatal = false →
      step s = exec (decode (reqWord (s.arb.req p).op (s.arb.req p).addr (s.arb.req p).wdata))
        { s with
          moves := ms
          strobes := []
          arb := { s.arb with queue := q, port := p, replyP := none, replyG := none } }

/-- R152: a step whose move is a transaction, with nothing pending, runs the decoded request on a state in which that request
has been submitted and taken from the queue, and nothing else has changed. The fields of moves, served port, outputs and
stamps are the model's (log entries 1, 4, 5, 6). -/
def Obligations.StepRunsTransaction : Prop :=
  ∀ (s : State) (ms : List Move) (p : Port) (w : ReqWord), s.moves = .transact p w :: ms → s.arb.queue = [] →
    s.arb.fatal = false → (s.arb.req p).valid = false →
    ∃ u, step s = exec (decode w) u ∧ (u.arb.req p).word = w ∧ (u.arb.req p).valid = true ∧
      (∀ q, q ≠ p → u.arb.req q = s.arb.req q) ∧
      u = { s with
        moves := ms
        strobes := []
        arb := { s.arb with
          reqP := u.arb.reqP
          reqG := u.arb.reqG
          queue := []
          port := p
          nextStamp := s.arb.nextStamp + 1
          replyP := none
          replyG := none } }

/-- R143: a request that arrived earlier on the other port is serviced first, by its own operation, which answers a next
state; if that is fatal the transaction ends there, else the port's own request is executed on the state it left. That both
happen in one move is the model's (log entry 10). -/
def Obligations.ArrivalOrderIsServiceOrder : Prop :=
  ∀ (p q : Port) (w : ReqWord) (s : State), q ≠ p → s.arb.fatal = false → s.arb.queue = [q] →
    (s.arb.req p).valid = false →
    ∃ u v, u = takeHead q [p] (enqueueRequest p w s) ∧
      (u.arb.fatal = false ∧ u.arb.alive = s.arb.alive ∧ u.arb.cause = s.arb.cause ∧ u.arb.port = q ∧ u.arb.queue = [p] ∧
        u.arb.req q = s.arb.req q ∧ (u.arb.req p).valid = true ∧ (u.arb.req p).word = w ∧
        u.arb.replyP = s.arb.replyP ∧ u.arb.replyG = s.arb.replyG ∧ u = { s with arb := u.arb }) ∧
      exec (decode (s.arb.req q).word) u = .next v ∧
      (v.arb.fatal = true → transact p w s = .next v) ∧
      (v.arb.fatal = false → transact p w s = exec (decode w) { v with arb := { v.arb with queue := [], port := p } })

/-- R143, U13: two requests that arrive together are both pending afterwards; TIE_BREAK, of which nothing is known, orders
them (log entry 2). The stamps are the model's numbers (log entry 6). -/
def Obligations.SimultaneousArrivals : Prop :=
  ∀ (wP wG : ReqWord) (s : State), s.arb.fatal = false → s.arb.reqP.valid = false → s.arb.reqG.valid = false →
    ∃ t, applyMove (.submitBoth wP wG) s = .next t ∧ t.arb.reqP.valid = true ∧ t.arb.reqG.valid = true ∧
      t.arb.reqP.word = wP ∧ t.arb.reqG.word = wG ∧
      (Config.tieBreak s.draws = .portP → t.arb.queue = s.arb.queue ++ [.portP, .portG] ∧
        t.arb.reqP.stamp < t.arb.reqG.stamp) ∧
      (Config.tieBreak s.draws = .portG → t.arb.queue = s.arb.queue ++ [.portG, .portP] ∧
        t.arb.reqG.stamp < t.arb.reqP.stamp)

/-- R151: in a service a response is delivered to the port whose request was taken and to no other; there is exactly one,
except on a severed channel. -/
def Obligations.ReplyGoesToRequester : Prop :=
  ∀ (s t : State) (p : Port) (q : List Port), s.arb.queue = p :: q → service s = .next t →
    (∀ x, x ≠ p → t.arb.reply x = s.arb.reply x ∧ t.arb.req x = s.arb.req x) ∧
    (s.arb.alive = true → ∃ r, t.arb.reply p = some r) ∧ (s.arb.alive = false → t.arb.reply p = s.arb.reply p) ∧
    (s.arb.alive = true → (t.arb.req p).valid = false) ∧ t.arb.queue = q

/-! Whole-machine rules -/

/-- R177, R158: no move but a tick or a reset changes the mode, the counter or the line, and no tick passes while a request is
outstanding (log entry 17). -/
def Obligations.OnlyTicksMoveTimer : Prop :=
  (∀ (m : Move) (s t : State), m ≠ .tick → m ≠ .reset → applyMove m s = .next t → t.timer = s.timer) ∧
    ∀ (p : Port) (s : State), (s.arb.req p).valid = true → ∀ t, applyMove .tick s ≠ .next t

/-- R24, R25, R126, R23: the ROM arrays and the overlay flag are changed by host events only; the configuration by
nothing. -/
def Obligations.RomAndConfigWriters : Prop :=
  ∀ (m : Move) (s t : State), applyMove m s = .next t →
    t.cfg = s.cfg ∧
    (m ≠ .reset → (∀ b, m ≠ .loadBoot b) → t.mem.boot = s.mem.boot) ∧
    (m ≠ .reset → (∀ b, m ≠ .loadRom b) → t.mem.rom0 = s.mem.rom0 ∧ t.mem.rom1 = s.mem.rom1) ∧
    (m ≠ .reset → (∀ b, m ≠ .setInBoot b) → t.inBoot = s.inBoot)

/-- R272: a tick never changes the storage or the tile cache. -/
def Obligations.GraphicsNeverWrites : Prop :=
  ∀ s t : State, tick s = .next t → t.mem = s.mem ∧ t.tile = s.tile

/-- R70, R323: while sprite attribute memory is locked no move but reset changes a byte of it. -/
def Obligations.LockedOamUnchanged : Prop :=
  ∀ (m : Move) (s t : State), s.oamLocked = true → m ≠ .reset → applyMove m s = .next t →
    ∀ k, t.mem.read .oam k = s.mem.read .oam k

/-- R34, R142, R214: every step keeps the invariants and the canonical form of every table, and keeps the listed sprites
visible during PixelTransfer. -/
def Obligations.StepKeepsInvariants : Prop :=
  ∀ s t : State, s.Inv → step s = .next t → t.Inv ∧ (s.SelectedVisible → t.SelectedVisible)

/-- R171, R242, R294, R295, R296: from a state that meets the invariants no step raises a timing fault or the overlay fault,
and none is refused (the one refusal is the model's, log entry 12). -/
def Obligations.DefectFaultsUnreachable : Prop :=
  ∀ s : State, s.Inv → s.SelectedVisible →
    (∀ r, step s ≠ .refused r) ∧
    ∀ t, step s = .next t → s.arb.fatal = false →
      t.arb.cause = .noCause ∨ t.arb.cause = .malformedRequest ∨ t.arb.cause = .channelSevered

/-- R157, R170: on a running block the graphics tick completes, and the block is still running after it. -/
def Obligations.TicksKeepRunning : Prop := ∀ s : State, s.Running → ∃ t, tick s = .next t ∧ t.Running

/-- R212, R325: every step keeps the sprite copy in agreement with attribute memory as far as the scan has come. -/
def Obligations.SpriteCopyAgrees : Prop :=
  ∀ s t : State, s.Inv → s.ScanAgrees → step s = .next t → t.ScanAgrees

/-! The graphics tick -/

/-- R172, R212, R213, R214, R231: the OAMScan tick. -/
def Obligations.OamScanTick : Prop :=
  ∀ s : State, s.arb.fatal = false → s.arb.alive = true → s.NothingPending → s.timer.mode = .oamScan →
    s.timer.counter.toNat < 80 → s.timer.line.toNat ≤ 153 →
    ∃ t, tick s = .next t ∧ Arbiter.AfterReadG s.arb t.arb ∧
      t.arb.reqG.op = 1 ∧ t.arb.reqG.addr.toNat = 0xFE00 + 2 * s.timer.counter.toNat ∧
      t.arb.replyG = some { status := .okData, unsup := false, data := s.oamWord s.timer.counter.toNat } ∧
      (∀ n : Fin 40, t.sprites.recs[n] =
        if n.val = s.timer.counter.toNat / 2 then
          if s.timer.counter.toNat % 2 = 0 then
            { s.sprites.recs[n] with
              y := s.mem.read .oam (2 * s.timer.counter.toNat), x := s.mem.read .oam (2 * s.timer.counter.toNat + 1) }
          else
            { s.sprites.recs[n] with
              tile := s.mem.read .oam (2 * s.timer.counter.toNat)
              flags := s.mem.read .oam (2 * s.timer.counter.toNat + 1) }
        else s.sprites.recs[n]) ∧
      (∀ n : Fin 40, t.sprites.consumed[n] = (if s.timer.counter = 0 then false else s.sprites.consumed[n])) ∧
      (s.timer.counter.toNat < 79 →
        t.timer = { s.timer with counter := s.timer.counter + 1 } ∧ t.pipe = s.pipe ∧
          t.sprites.vis = if s.timer.counter = 0 then [] else s.sprites.vis) ∧
      (s.timer.counter.toNat = 79 →
        t.timer = { s.timer with mode := .pixelTransfer, counter := 0 } ∧ t.pipe = lineResetPipe s.pipe ∧
          t.sprites.vis = scanline t.sprites s.timer.line.toNat) ∧
      t = { s with arb := t.arb, timer := t.timer, sprites := t.sprites, pipe := t.pipe }

/-- R173, R178: the PixelTransfer tick runs the dot; the 172nd copies the line to the frame buffer, strobes line_done and
enters HBlank. That a line of 144 to 153, which is ill-formed here, is not stored is the model's (log entry 14). -/
def Obligations.PixelTransferTick : Prop :=
  ∀ s u : State, s.arb.fatal = false → s.NothingPending → s.timer.line.toNat ≤ 153 →
    s.timer.mode = .pixelTransfer → dot s = .next u →
    (u.arb.fatal = true → tick s = .next u) ∧
    (u.arb.fatal = false → s.timer.counter.toNat < 171 →
      tick s = .next { u with timer := { s.timer with counter := s.timer.counter + 1 } }) ∧
    (u.arb.fatal = false → 171 ≤ s.timer.counter.toNat →
      tick s = .next
        { u with
          timer := { s.timer with mode := .hBlank, counter := 0 }
          fb := u.fb.setIfInBounds s.timer.line.toNat u.pipe.linebuf
          strobes := u.strobes ++ [.lineDone s.timer.line ((List.range 160).map fun c =>
            Config.rgbaOf (linePixel u.pipe.linebuf c).src (linePixel u.pipe.linebuf c).code)] })

/-- R174, R179: the HBlank tick counts; the 204th moves to the next line's OAMScan, or after line 143 to VBlank with the
frame_done strobe. -/
def Obligations.HBlankTick : Prop :=
  ∀ s : State, s.arb.fatal = false → s.NothingPending → s.timer.line.toNat ≤ 153 → s.timer.mode = .hBlank →
    (s.timer.counter.toNat < 203 → tick s = .next { s with timer := { s.timer with counter := s.timer.counter + 1 } }) ∧
    (203 ≤ s.timer.counter.toNat → s.timer.line.toNat ≠ 143 →
      tick s = .next { s with timer := { mode := .oamScan, counter := 0, line := s.timer.line + 1 } }) ∧
    (203 ≤ s.timer.counter.toNat → s.timer.line.toNat = 143 →
      tick s = .next
        { s with timer := { mode := .vBlank, counter := 0, line := 144 }, strobes := s.strobes ++ [.frameDone] })

/-- R175: the VBlank tick counts; the 456th moves to the next line, after line 153 to line 0's OAMScan. -/
def Obligations.VBlankTick : Prop :=
  ∀ s : State, s.arb.fatal = false → s.NothingPending → s.timer.line.toNat ≤ 153 → s.timer.mode = .vBlank →
    (s.timer.counter.toNat < 455 → tick s = .next { s with timer := { s.timer with counter := s.timer.counter + 1 } }) ∧
    (455 ≤ s.timer.counter.toNat → s.timer.line.toNat < 153 →
      tick s = .next { s with timer := { mode := .vBlank, counter := 0, line := s.timer.line + 1 } }) ∧
    (455 ≤ s.timer.counter.toNat → s.timer.line.toNat = 153 →
      tick s = .next { s with timer := { mode := .oamScan, counter := 0, line := 0 } })

/-- R171, R294: a tick that starts with a line above 153 sets the latch with TIMING_LINE and does nothing else. -/
def Obligations.LineOutOfRangeIsFatal : Prop :=
  ∀ s : State, s.arb.fatal = false → s.NothingPending → 153 < s.timer.line.toNat →
    tick s = .next { s with arb := { s.arb with fatal := true, cause := .timingLine } }

/-- R176: a tick of a running block takes the timer from where n ticks after the start of line 0 put it to where n + 1 do, and
the block stays running; so from the start of line 0, the mode, counter and line after any number of ticks. -/
def Obligations.FrameArithmetic : Prop :=
  (∀ (n : Nat) (s : State), s.Running → s.timer = timerAfter n →
      ∃ t, tick s = .next t ∧ t.Running ∧ t.timer = timerAfter (n + 1)) ∧
    ∀ (n : Nat) (s : State), s.Running → s.timer = { mode := .oamScan, counter := 0, line := 0 } →
      ∃ t, runTicks n s = .next t ∧ t.timer = timerAfter n

/-- R245: every step keeps the pipeline on the timeline of its line, whatever memory and sprites hold. So from the start of
PixelTransfer with a reset pipeline: no push on dots 0 to 10, one on each of dots 11 to 170, the line complete after dot
170; after dot 171 the fetcher waits in ENQ with 8 slots and its 22nd tile. -/
def Obligations.LineTimeline : Prop :=
  (∀ s t : State, s.Inv → s.OnSchedule → step s = .next t → t.OnSchedule) ∧
    ∀ s : State, s.Running → s.timer.mode = .pixelTransfer → s.timer.counter = 0 → s.pipe = lineResetPipe s.pipe →
      (∀ n ≤ 172, ∃ t, runTicks n s = .next t ∧ t.pipe.outCol.toNat = min (n - 11) 160) ∧
      ∃ t, runTicks 172 s = .next t ∧ t.pipe.fstate = .enq ∧ t.pipe.phase = false ∧ t.pipe.count = 8 ∧
        t.pipe.fetchX = 21

/-! Sprites -/

/-- R211, R97, R210: visibility in integer arithmetic, and the flag bits with the worked example. -/
def Obligations.SpriteRecordRules : Prop :=
  (∀ (r : SpriteRec) (l : Nat), spriteVisible r l = true ↔
    ((l : Int) + 16 ≥ (r.y.toNat : Int) ∧ (l : Int) + 16 < (r.y.toNat : Int) + 8)) ∧
    (∀ (r : SpriteRec) (l : Nat), r.y = 16 → (spriteVisible r l = true ↔ l ≤ 7)) ∧
    ∀ r : SpriteRec, r.flags = 0b10100000 →
      r.priority = true ∧ r.yFlip = false ∧ r.xFlip = true ∧ r.paletteSelect = false

/-- R214: scanline lists visible, unconsumed records in table order, at most ten, and drops only records beyond the tenth
match. -/
def Obligations.ScanlineSelectsFirstTen : Prop :=
  ∀ (t : SpriteTable) (l : Nat),
    (scanline t l).Pairwise (· < ·) ∧ (scanline t l).length ≤ 10 ∧
    (∀ n ∈ scanline t l, spriteVisible t.recs[n] l = true ∧ t.consumed[n] = false) ∧
    ∀ n : Fin 40, spriteVisible t.recs[n] l = true → t.consumed[n] = false → n ∉ scanline t l →
      (scanline t l).length = 10 ∧ ∀ m ∈ scanline t l, m < n

/-! The pixel pipeline -/

/-- R231: lineReset puts the fetcher, the FIFO's valid bits, the column and the line at their start values and touches
nothing else; R232: once the line is complete a dot does nothing; R230, R291: below column 160 it is the fetch stage and,
unless that ended the step, the enqueue stage and the gate with what stands behind it. -/
def Obligations.LineStartAndEnd : Prop :=
  ∀ s : State,
    lineReset s = { s with pipe := (lineReset s).pipe } ∧
    ((lineReset s).pipe.fstate = .resolve ∧ (lineReset s).pipe.phase = false ∧ (lineReset s).pipe.fetchX = 0 ∧
      (lineReset s).pipe.tileNo = 0 ∧ (lineReset s).pipe.byte0 = 0 ∧ (lineReset s).pipe.byte1 = 0 ∧
      (lineReset s).pipe.count = 0 ∧ (lineReset s).pipe.outCol = 0) ∧
    (∀ k : Fin 16, (lineReset s).pipe.fifo[k] = { s.pipe.fifo[k] with valid := false }) ∧
    (∀ c, linePixel (lineReset s).pipe.linebuf c = { src := .bg, code := 0 }) ∧
    (160 ≤ s.pipe.outCol.toNat → dot s = .next s) ∧
    (∀ u, s.pipe.outCol.toNat < 160 → fetchStage s = .next u → u.arb.fatal = true → dot s = .next u) ∧
    ∀ u, s.pipe.outCol.toNat < 160 → fetchStage s = .next u → u.arb.fatal = false → dot s = emitStage (enqueueStage u)

/-- R233 to R236: the first dot of a pair only sets `phase`; on the second the step reads its byte on port G; in ENQ the
fetch stage does nothing; R6, R234, R235: the addresses read where the configuration lists nothing else. That the address
of the HIGH step wraps modulo 2^16 is the model's (log entry 15). -/
def Obligations.FetchStageSteps : Prop :=
  (∀ (c : Config) (line : BitVec 8) (x : BitVec 5), c.bgMap = [] →
      (bgMapAddr c line x).toNat = 0x9800 + 32 * (line.toNat / 8) + x.toNat) ∧
    (∀ (c : Config) (line : BitVec 8) (n : Byte), c.bgData = [] →
      (bgDataAddr c n line).toNat = 0x8000 + 16 * n.toNat + 2 * (line.toNat % 8)) ∧
    ∀ s : State, s.PortGIdle →
    (s.pipe.fstate = .enq → fetchStage s = .next s) ∧
    (s.pipe.fstate ≠ .enq → s.pipe.phase = false → fetchStage s = .next { s with pipe := { s.pipe with phase := true } }) ∧
    (s.pipe.fstate = .resolve → s.pipe.phase = true → ∃ t, fetchStage s = .next t ∧ Arbiter.AfterReadG s.arb t.arb ∧
      t = { s with
        arb := t.arb
        pipe := { s.pipe with
          phase := false
          fstate := .low
          tileNo := s.busByteG (bgMapAddr s.cfg s.timer.line s.pipe.fetchX) } }) ∧
    (s.pipe.fstate = .low → s.pipe.phase = true → ∃ t, fetchStage s = .next t ∧ Arbiter.AfterReadG s.arb t.arb ∧
      t = { s with
        arb := t.arb
        pipe := { s.pipe with
          phase := false
          fstate := .high
          byte0 := s.busByteG (bgDataAddr s.cfg s.pipe.tileNo s.timer.line) } }) ∧
    (s.pipe.fstate = .high → s.pipe.phase = true → ∃ t, fetchStage s = .next t ∧ Arbiter.AfterReadG s.arb t.arb ∧
      t = { s with
        arb := t.arb
        pipe := { s.pipe with
          phase := false
          fstate := .enq
          byte1 := s.busByteG (bgDataAddr s.cfg s.pipe.tileNo s.timer.line + 1) } })

/-- R237: the enqueue stage appends the eight pixels of the fetched row when it is due and there is room, and else does
nothing. -/
def Obligations.EnqueueAppendsRow : Prop :=
  ∀ s : State,
    (s.pipe.fstate = .enq → s.pipe.count.toNat ≤ 8 →
      (∀ k : Fin 16, (enqueueStage s).pipe.fifo[k] =
        if s.pipe.count.toNat ≤ k.val ∧ k.val < s.pipe.count.toNat + 8 then
          { valid := true, src := .bg, code := pix (s.pipe.byte0 ++ s.pipe.byte1) (k.val - s.pipe.count.toNat) }
        else s.pipe.fifo[k]) ∧
      (enqueueStage s).pipe.count.toNat = s.pipe.count.toNat + 8 ∧
      (enqueueStage s).pipe.fetchX.toNat = (s.pipe.fetchX.toNat + 1) % 32 ∧
      enqueueStage s = { s with
        pipe := { s.pipe with
          fifo := (enqueueStage s).pipe.fifo
          count := (enqueueStage s).pipe.count
          fetchX := (enqueueStage s).pipe.fetchX
          fstate := .resolve
          phase := false } }) ∧
    (s.pipe.fstate ≠ .enq ∨ 8 < s.pipe.count.toNat → enqueueStage s = s)

/-- R240, R241: on a visible sprite and eight valid slots the overlay completes; slot i < 8 takes the sprite's pixel and tag
exactly when it is a background slot and the pixel is not transparent, and every other slot is kept. -/
def Obligations.OverlayRule : Prop :=
  ∀ (n : Fin 40) (s : State), s.arb.fatal = false → spriteVisible s.sprites.recs[n] s.timer.line.toNat = true →
    (∀ k : Fin 16, k.val < 8 → s.pipe.fifo[k].valid = true) →
    ∃ t, overlay n s = .next t ∧ t = { s with pipe := { s.pipe with fifo := t.pipe.fifo } } ∧
      ∀ k : Fin 16, t.pipe.fifo[k] = if k.val < 8 then s.overlaidSlot n k else s.pipe.fifo[k]

/-- R240, R242, R296: an overlay that meets an invalid slot i sets the latch with OVERLAY_EMPTY_SLOT; the slots before i are
overlaid already, those from i on are not touched. -/
def Obligations.EmptySlotIsFatal : Prop :=
  ∀ (n : Fin 40) (i : Fin 16) (s : State), s.arb.fatal = false → i.val < 8 →
    spriteVisible s.sprites.recs[n] s.timer.line.toNat = true → (∀ k : Fin 16, k < i → s.pipe.fifo[k].valid = true) →
    s.pipe.fifo[i].valid = false →
    ∃ t, overlay n s = .next t ∧ t.arb.fatal = true ∧ t.arb.cause = .overlayEmptySlot ∧
      (∀ k : Fin 16, t.pipe.fifo[k] = if k < i then s.overlaidSlot n k else s.pipe.fifo[k]) ∧
      t = { s with
        arb := { s.arb with fatal := true, cause := .overlayEmptySlot }
        pipe := { s.pipe with fifo := t.pipe.fifo } }

/-- R239: at most one sprite is overlaid per column: the first listed, unconsumed one whose x - 8 is the output column; it
is consumed, and no other sprite's mark changes. Where none matches the stage does nothing; an overlay that is fatal ends
the step with nothing consumed (R291). -/
def Obligations.FirstMatchWins : Prop :=
  (∀ s : State,
      (∀ m ∈ s.sprites.vis,
        s.sprites.consumed[m] = true ∨ (s.sprites.recs[m].x.toNat : Int) - 8 ≠ s.pipe.outCol.toNat) →
      overlayStage s = .next s) ∧
    ∀ (s u : State) (n : Fin 40) (before after : List (Fin 40)), s.sprites.vis = before ++ n :: after →
      (∀ m ∈ before, s.sprites.consumed[m] = true ∨ (s.sprites.recs[m].x.toNat : Int) - 8 ≠ s.pipe.outCol.toNat) →
      s.sprites.consumed[n] = false → (s.sprites.recs[n].x.toNat : Int) - 8 = s.pipe.outCol.toNat →
      overlay n s = .next u →
      (u.arb.fatal = true → overlayStage s = .next u) ∧
      (u.arb.fatal = false →
        ∃ t, overlayStage s = .next t ∧ t = { u with sprites := t.sprites } ∧ t.sprites.consumed[n] = true ∧
          (∀ m : Fin 40, m ≠ n → t.sprites.consumed[m] = u.sprites.consumed[m]) ∧ t.sprites.vis = u.sprites.vis ∧
          t.sprites.recs = u.sprites.recs)

/-- R238, R243: below the gate nothing is pushed, above it the overlay stage is followed by one push; the push moves the
oldest slot to the line, shifts the FIFO and advances the column. An overlay stage that is fatal is followed by no push
(R291). -/
def Obligations.PushRule : Prop :=
  ∀ s : State,
    (s.pipe.count.toNat ≤ 8 → emitStage s = .next s) ∧
    (∀ u, 8 < s.pipe.count.toNat → overlayStage s = .next u → u.arb.fatal = true → emitStage s = .next u) ∧
    (∀ u, 8 < s.pipe.count.toNat → overlayStage s = .next u → u.arb.fatal = false →
      emitStage s = .next (pushStage u)) ∧
    (∀ c, linePixel (pushStage s).pipe.linebuf c =
      if c = s.pipe.outCol.toNat then ⟨s.pipe.fifo[0].src, s.pipe.fifo[0].code⟩ else linePixel s.pipe.linebuf c) ∧
    (∀ k : Fin 15, (pushStage s).pipe.fifo[k.val]'(by omega) = s.pipe.fifo[k.val + 1]'(by omega)) ∧
    (pushStage s).pipe.fifo[15].valid = false ∧ (pushStage s).pipe.count = s.pipe.count - 1 ∧
    (pushStage s).pipe.outCol = s.pipe.outCol + 1 ∧
    pushStage s = { s with
      pipe := { s.pipe with
        linebuf := (pushStage s).pipe.linebuf
        fifo := (pushStage s).pipe.fifo
        count := s.pipe.count - 1
        outCol := s.pipe.outCol + 1 } }

/-! The host -/

/-- R274, R275: the image loads store their bytes, ignore the excess, keep the cells beyond a short image and change nothing
else. -/
def Obligations.ImageLoads : Prop :=
  ∀ (s : State) (bytes : List Byte), s.arb.fatal = false →
    (∃ t, applyMove (.loadBoot bytes) s = .next t ∧ t = { s with mem := t.mem } ∧
      ∀ b k, t.mem.read b k =
        if b = .boot ∧ k < 256 ∧ k < bytes.length then bytes.getD k 0 else s.mem.read b k) ∧
    ∃ t, applyMove (.loadRom bytes) s = .next t ∧ t = { s with mem := t.mem } ∧
      ∀ b k, t.mem.read b k =
        if b = .rom0 ∧ k < 0x4000 ∧ k < bytes.length then bytes.getD k 0
        else if b = .rom1 ∧ k < 0x4000 ∧ k + 0x4000 < bytes.length then bytes.getD (k + 0x4000) 0
        else s.mem.read b k

/-- R277, R278, R279, R193: set_in_boot, tile_reset and sever change their own bit or the tile cache and nothing else. -/
def Obligations.HostEventFrames : Prop :=
  ∀ (s : State) (b : Bool), s.arb.fatal = false →
    applyMove (.setInBoot b) s = .next { s with inBoot := b } ∧
    applyMove .sever s = .next { s with arb := { s.arb with alive := false } } ∧
    ∃ t, applyMove .tileReset s = .next t ∧ t = { s with tile := t.tile } ∧ ∀ k r, t.tileRow k r = 0

/-- R320, R273: reset, from any state, a fatal one too, gives every piece of state the spec names its reset value. -/
def Obligations.ResetEvent : Prop :=
  ∀ s : State, ∃ t, applyMove .reset s = .next t ∧
    t.mem = s.cfg.ramInit ∧ t.inBoot = s.cfg.bootPresent ∧ t.arb.reqP.valid = false ∧ t.arb.reqG.valid = false ∧
    t.arb.queue = [] ∧ t.arb.alive = true ∧ t.arb.fatal = false ∧ t.arb.cause = .noCause ∧
    t.timer = { mode := .oamScan, counter := 0, line := 0 } ∧ (∀ k r, t.tileRow k r = 0) ∧
    (∀ n : Fin 40, t.sprites.recs[n] = { y := 0, x := 0, tile := 0, flags := 0 } ∧ t.sprites.consumed[n] = false) ∧
    t.sprites.vis = [] ∧
    (t.pipe.fstate = .resolve ∧ t.pipe.phase = false ∧ t.pipe.fetchX = 0 ∧ t.pipe.tileNo = 0 ∧ t.pipe.byte0 = 0 ∧
      t.pipe.byte1 = 0 ∧ t.pipe.count = 0 ∧ t.pipe.outCol = 0) ∧
    (∀ k : Fin 16, t.pipe.fifo[k].valid = false) ∧ (∀ c, linePixel t.pipe.linebuf c = { src := .bg, code := 0 }) ∧
    ∀ (l : Fin 144) (c : Nat), linePixel t.fb[l] c = { src := .bg, code := 0 }

/-- R34, R35: the reset state of the default configuration meets the invariants; every cell reads 0x00 (RAM_INIT's default,
log entry 3), the overlay is off. -/
def Obligations.ResetStateMeetsInvariants : Prop :=
  State.reset.Inv ∧ State.reset.SelectedVisible ∧ State.reset.Running ∧ State.reset.inBoot = false ∧
    ∀ b k, State.reset.mem.read b k = 0
end

