-- ==== Sys2Proof/Laws/Sparse.lean ====
section
/-! SUPPORT. Laws of the canonical tables: what a read gives after a write or a load, and that both keep the canonical
form. -/

namespace Sys2Proof.Machine

variable {α : Type}

theorem Sparse.get_erase (d : α) (m : List (Nat × α)) (k j : Nat) :
    Sparse.get d (Sparse.erase m k) j = if j = k then d else Sparse.get d m j := by
  induction m with
  | nil => simp [Sparse.erase, Sparse.get]
  | cons e t ih =>
    unfold Sparse.erase at ih ⊢
    by_cases he : e.1 = k
    · simp only [List.filter_cons, he, ne_eq, not_true, decide_false, Bool.false_eq_true, if_false, ih, Sparse.get]
      grind
    · simp only [List.filter_cons, ne_eq, he, not_false_eq_true, decide_true, if_true, Sparse.get, ih]
      grind

theorem Sparse.get_insert (d : α) (k : Nat) (v : α) (m : List (Nat × α)) (h : ∀ e ∈ m, e.1 ≠ k) (j : Nat) :
    Sparse.get d (Sparse.insert k v m) j = if j = k then v else Sparse.get d m j := by
  induction m with
  | nil => simp [Sparse.insert, Sparse.get, eq_comm]
  | cons e t ih =>
    have hh := h e (by simp)
    have ht := ih fun x hx => h x (by simp [hx])
    unfold Sparse.insert
    split <;> simp only [Sparse.get, ht] <;> grind

theorem Sparse.erase_no_key (m : List (Nat × α)) (k : Nat) : ∀ e ∈ Sparse.erase m k, e.1 ≠ k := by
  intro e he
  simpa [Sparse.erase] using (List.mem_filter.mp he).2

/-- A read after a write, at any index. -/
theorem Sparse.get_set [DecidableEq α] (d : α) (m : List (Nat × α)) (k : Nat) (v : α) (j : Nat) :
    Sparse.get d (Sparse.set d m k v) j = if j = k then v else Sparse.get d m j := by
  unfold Sparse.set
  split
  · rename_i h
    rw [Sparse.get_erase, h]
  · rw [Sparse.get_insert d k v _ (Sparse.erase_no_key m k), Sparse.get_erase]
    split <;> simp_all

@[simp] theorem Sparse.get_set_same [DecidableEq α] (d : α) (m : List (Nat × α)) (k : Nat) (v : α) :
    Sparse.get d (Sparse.set d m k v) k = v := by simp [Sparse.get_set]

theorem Sparse.get_set_other [DecidableEq α] (d : α) (m : List (Nat × α)) {k j : Nat} (v : α) (h : j ≠ k) :
    Sparse.get d (Sparse.set d m k v) j = Sparse.get d m j := by simp [Sparse.get_set, h]

theorem Sparse.get_append (d : α) (m n : List (Nat × α)) (j : Nat) :
    Sparse.get d (m ++ n) j = if j ∈ m.map (·.1) then Sparse.get d m j else Sparse.get d n j := by
  induction m with
  | nil => simp
  | cons e t ih =>
    simp only [List.cons_append, Sparse.get, ih, List.map_cons, List.mem_cons]
    grind

theorem Sparse.get_filter (d : α) (p : Nat → Bool) (m : List (Nat × α)) (j : Nat) :
    Sparse.get d (m.filter fun e => p e.1) j = if p j then Sparse.get d m j else d := by
  induction m with
  | nil => simp [Sparse.get]
  | cons e t ih =>
    simp only [List.filter_cons, Sparse.get]
    split <;> simp only [Sparse.get, ih] <;> grind

theorem Sparse.mem_keys_filter (p : Nat → Bool) (m : List (Nat × α)) (j : Nat) :
    j ∈ (m.filter fun e => p e.1).map (·.1) ↔ p j = true ∧ j ∈ m.map (·.1) := by
  simp only [List.mem_map, List.mem_filter]
  constructor
  · rintro ⟨e, ⟨h1, h2⟩, rfl⟩
    exact ⟨h2, e, h1, rfl⟩
  · rintro ⟨h2, e, h1, rfl⟩
    exact ⟨e, ⟨h1, h2⟩, rfl⟩

theorem Sparse.get_not_key (d : α) (m : List (Nat × α)) (j : Nat) (h : j ∉ m.map (·.1)) : Sparse.get d m j = d := by
  induction m with
  | nil => rfl
  | cons e t ih =>
    simp only [List.map_cons, List.mem_cons, not_or] at h
    simp only [Sparse.get, if_neg (Ne.symm h.1), ih h.2]

theorem Sparse.block_key_range [DecidableEq α] (d : α) (k : Nat) (vs : List α) (e : Nat × α)
    (h : e ∈ Sparse.block d k vs) : k ≤ e.1 ∧ e.1 < k + vs.length := by
  induction vs generalizing k with
  | nil => simp [Sparse.block] at h
  | cons v t ih =>
    unfold Sparse.block at h
    split at h
    · have := ih _ h
      simp only [List.length_cons]
      omega
    · rcases List.mem_cons.mp h with rfl | h
      · simp
      · have := ih _ h
        simp only [List.length_cons]
        omega

theorem Sparse.get_block [DecidableEq α] (d : α) (k : Nat) (vs : List α) (j : Nat) :
    Sparse.get d (Sparse.block d k vs) j = if k ≤ j then vs.getD (j - k) d else d := by
  induction vs generalizing k with
  | nil => simp [Sparse.block, Sparse.get]
  | cons v t ih =>
    unfold Sparse.block
    by_cases hj : j = k
    · subst hj
      split
      · rename_i hv
        rw [ih]
        simp [hv]
      · simp [Sparse.get]
    · have step : Sparse.get d (Sparse.block d (k + 1) t) j = if k ≤ j then (v :: t).getD (j - k) d else d := by
        rw [ih]
        by_cases hk : k ≤ j
        · have : j - k = (j - (k + 1)) + 1 := by omega
          rw [if_pos hk, if_pos (by omega), this, List.getD_cons_succ]
        · rw [if_neg hk, if_neg (by omega)]
      split
      · exact step
      · rw [Sparse.get, if_neg (by simpa using Ne.symm hj), step]

/-- A read after a load, at any index. -/
theorem Sparse.get_load [DecidableEq α] (d : α) (m : List (Nat × α)) (k : Nat) (vs : List α) (j : Nat) :
    Sparse.get d (Sparse.load d m k vs) j =
      if k ≤ j ∧ j < k + vs.length then vs.getD (j - k) d else Sparse.get d m j := by
  unfold Sparse.load
  rw [Sparse.get_append, Sparse.get_append]
  have f1 := Sparse.get_filter d (fun i => decide (i < k)) m j
  have f2 := Sparse.get_filter d (fun i => decide (k + vs.length ≤ i)) m j
  have k1 := Sparse.mem_keys_filter (fun i => decide (i < k)) m j
  simp only [decide_eq_true_eq] at f1 f2 k1
  simp only [List.map_append, List.mem_append, k1, f1, f2, Sparse.get_block]
  have hb : j ∈ (Sparse.block d k vs).map (·.1) → k ≤ j ∧ j < k + vs.length := by
    intro h
    obtain ⟨e, he, rfl⟩ := List.mem_map.mp h
    exact Sparse.block_key_range d k vs e he
  have hn : j ∉ (Sparse.block d k vs).map (·.1) → (if k ≤ j then vs.getD (j - k) d else d) = d := by
    intro h
    rw [← Sparse.get_block]
    exact Sparse.get_not_key d _ j h
  have hm : j ∉ m.map (·.1) → Sparse.get d m j = d := Sparse.get_not_key d m j
  by_cases h1 : j < k
  · have hk : ¬ k ≤ j := by omega
    have h2 : ¬ k + vs.length ≤ j := by omega
    by_cases hmem : j ∈ m.map (·.1)
    · simp [h1, hk, hmem]
    · have hb' : j ∉ (Sparse.block d k vs).map (·.1) := fun h => hk (hb h).1
      simp only [h1, hk, hmem, hb', h2, true_and, false_and, or_false, if_false, hm hmem]
  · have hk : k ≤ j := by omega
    by_cases h2 : j < k + vs.length
    · have h3 : ¬ k + vs.length ≤ j := by omega
      by_cases hb' : j ∈ (Sparse.block d k vs).map (·.1)
      · simp [h1, hk, h2, hb']
      · have := hn hb'
        rw [if_pos hk] at this
        simp only [h1, hk, h2, h3, hb', false_and, or_false, if_false, if_true, and_self, this]
    · have h3 : k + vs.length ≤ j := by omega
      have hb' : j ∉ (Sparse.block d k vs).map (·.1) := fun h => h2 (hb h).2
      simp only [h1, hk, h2, h3, hb', false_and, or_false, if_false, if_true, and_false]

theorem Sparse.canonFrom_mono [DecidableEq α] (d : α) (size : Nat) {lo hi : Nat} (h : lo ≤ hi) (m : List (Nat × α))
    (hc : Sparse.canonFrom d size hi m = true) : Sparse.canonFrom d size lo m = true := by
  cases m with
  | nil => rfl
  | cons e t =>
    simp only [Sparse.canonFrom, Bool.and_eq_true, decide_eq_true_eq] at hc ⊢
    exact ⟨⟨⟨by omega, hc.1.1.2⟩, hc.1.2⟩, hc.2⟩

theorem Sparse.canonFrom_filter [DecidableEq α] (d : α) (size : Nat) (p : Nat × α → Bool) (lo : Nat) (m : List (Nat × α))
    (hc : Sparse.canonFrom d size lo m = true) : Sparse.canonFrom d size lo (m.filter p) = true := by
  induction m generalizing lo with
  | nil => rfl
  | cons e t ih =>
    simp only [Sparse.canonFrom, Bool.and_eq_true, decide_eq_true_eq] at hc
    have ht := ih _ hc.2
    rw [List.filter_cons]
    split
    · simp only [Sparse.canonFrom, Bool.and_eq_true, decide_eq_true_eq]
      exact ⟨hc.1, ht⟩
    · exact Sparse.canonFrom_mono d size (by omega) _ ht

theorem Sparse.canonFrom_insert [DecidableEq α] (d : α) (size : Nat) (k : Nat) (v : α) (hk : k < size) (hv : v ≠ d)
    (lo : Nat) (hlo : lo ≤ k) (m : List (Nat × α)) (hm : ∀ e ∈ m, e.1 ≠ k)
    (hc : Sparse.canonFrom d size lo m = true) : Sparse.canonFrom d size lo (Sparse.insert k v m) = true := by
  induction m generalizing lo with
  | nil => simp [Sparse.insert, Sparse.canonFrom, hk, hv, hlo]
  | cons e t ih =>
    have he := hm e (by simp)
    simp only [Sparse.canonFrom, Bool.and_eq_true, decide_eq_true_eq] at hc
    unfold Sparse.insert
    split
    · rename_i hlt
      simp only [Sparse.canonFrom, Bool.and_eq_true, decide_eq_true_eq]
      exact ⟨⟨⟨hlo, hk⟩, by simpa using hv⟩, ⟨⟨by omega, hc.1.1.2⟩, hc.1.2⟩, hc.2⟩
    · simp only [Sparse.canonFrom, Bool.and_eq_true, decide_eq_true_eq]
      exact ⟨hc.1, ih _ (by omega) (fun x hx => hm x (by simp [hx])) hc.2⟩

/-- A write inside the table keeps the canonical form. -/
theorem Sparse.canon_set [DecidableEq α] (d : α) (size : Nat) (m : List (Nat × α)) (k : Nat) (v : α) (hk : k < size)
    (hc : Sparse.canon d size m = true) : Sparse.canon d size (Sparse.set d m k v) = true := by
  unfold Sparse.canon Sparse.set at *
  have he : Sparse.canonFrom d size 0 (Sparse.erase m k) = true := Sparse.canonFrom_filter d size _ 0 m hc
  split
  · exact he
  · exact Sparse.canonFrom_insert d size k v hk ‹_› 0 (Nat.zero_le _) _ (Sparse.erase_no_key m k) he

theorem Sparse.canonFrom_append [DecidableEq α] (d : α) (size lo mid : Nat) (m n : List (Nat × α)) (hlm : lo ≤ mid)
    (hm : Sparse.canonFrom d size lo m = true) (hlt : ∀ e ∈ m, e.1 < mid)
    (hn : Sparse.canonFrom d size mid n = true) : Sparse.canonFrom d size lo (m ++ n) = true := by
  induction m generalizing lo with
  | nil => exact Sparse.canonFrom_mono d size hlm _ hn
  | cons e t ih =>
    simp only [Sparse.canonFrom, Bool.and_eq_true, decide_eq_true_eq, List.cons_append] at hm ⊢
    have := hlt e (by simp)
    exact ⟨hm.1, ih _ (by omega) hm.2 fun x hx => hlt x (by simp [hx])⟩

theorem Sparse.canonFrom_block [DecidableEq α] (d : α) (size k : Nat) (vs : List α) (h : k + vs.length ≤ size) :
    Sparse.canonFrom d size k (Sparse.block d k vs) = true := by
  induction vs generalizing k with
  | nil => rfl
  | cons v t ih =>
    simp only [List.length_cons] at h
    have ht := ih (k + 1) (by omega)
    unfold Sparse.block
    split
    · exact Sparse.canonFrom_mono d size (by omega) _ ht
    · simp only [Sparse.canonFrom, Bool.and_eq_true, decide_eq_true_eq]
      exact ⟨⟨⟨Nat.le_refl _, by omega⟩, by assumption⟩, ht⟩

theorem Sparse.canonFrom_filter_ge [DecidableEq α] (d : α) (size b lo : Nat) (m : List (Nat × α))
    (hc : Sparse.canonFrom d size lo m = true) :
    Sparse.canonFrom d size b (m.filter fun e => b ≤ e.1) = true := by
  induction m generalizing lo with
  | nil => rfl
  | cons e t ih =>
    simp only [Sparse.canonFrom, Bool.and_eq_true, decide_eq_true_eq] at hc
    rw [List.filter_cons]
    split
    · rename_i hb
      simp only [decide_eq_true_eq] at hb
      simp only [Sparse.canonFrom, Bool.and_eq_true, decide_eq_true_eq]
      exact ⟨⟨⟨hb, hc.1.1.2⟩, hc.1.2⟩, Sparse.canonFrom_filter d size _ _ _ hc.2⟩
    · exact ih _ hc.2

/-- A load inside the table keeps the canonical form. -/
theorem Sparse.canon_load [DecidableEq α] (d : α) (size : Nat) (m : List (Nat × α)) (k : Nat) (vs : List α)
    (hk : k + vs.length ≤ size) (hc : Sparse.canon d size m = true) :
    Sparse.canon d size (Sparse.load d m k vs) = true := by
  unfold Sparse.canon Sparse.load at *
  rw [List.append_assoc]
  refine Sparse.canonFrom_append d size 0 k _ _ (Nat.zero_le _) (Sparse.canonFrom_filter d size _ 0 m hc) ?_ ?_
  · intro e he
    simpa using (List.mem_filter.mp he).2
  · refine Sparse.canonFrom_append d size k (k + vs.length) _ _ (by omega) (Sparse.canonFrom_block d size k vs hk) ?_ ?_
    · intro e he
      exact (Sparse.block_key_range d k vs e he).2
    · exact Sparse.canonFrom_filter_ge d size (k + vs.length) 0 m hc

/-- Writing twice the same is writing once. -/
theorem Sparse.erase_insert (k : Nat) (v : α) (m : List (Nat × α)) (h : ∀ e ∈ m, e.1 ≠ k) :
    Sparse.erase (Sparse.insert k v m) k = m := by
  induction m with
  | nil => simp [Sparse.insert, Sparse.erase]
  | cons e t ih =>
    have he := h e (by simp)
    have ht := ih fun x hx => h x (by simp [hx])
    have hf : Sparse.erase t k = t := by
      refine List.filter_eq_self.mpr fun x hx => ?_
      simpa using h x (by simp [hx])
    unfold Sparse.insert
    split
    · unfold Sparse.erase at hf ⊢
      rw [List.filter_cons_of_neg (by simp), List.filter_cons_of_pos (by simpa using he), hf]
    · unfold Sparse.erase at ht ⊢
      rw [List.filter_cons_of_pos (by simpa using he), ht]

@[simp] theorem Sparse.erase_erase (m : List (Nat × α)) (k : Nat) : Sparse.erase (Sparse.erase m k) k = Sparse.erase m k := by
  simp [Sparse.erase, List.filter_filter]

/-- A second write to an index makes the first one void. -/
theorem Sparse.set_set [DecidableEq α] (d : α) (m : List (Nat × α)) (k : Nat) (v w : α) :
    Sparse.set d (Sparse.set d m k v) k w = Sparse.set d m k w := by
  have h : Sparse.erase (Sparse.set d m k v) k = Sparse.erase m k := by
    unfold Sparse.set
    split
    · simp
    · exact Sparse.erase_insert k v _ (Sparse.erase_no_key m k)
  unfold Sparse.set at *
  rw [h]

@[simp] theorem Storage.arr_setArr_same (m : Storage) (a : Arr) (c : Memory) : (m.setArr a c).arr a = c := by
  cases a <;> rfl

theorem Storage.arr_setArr_other (m : Storage) {a b : Arr} (c : Memory) (h : b ≠ a) : (m.setArr a c).arr b = m.arr b := by
  cases a <;> cases b <;> first | rfl | exact absurd rfl h

theorem Storage.arr_setArr (m : Storage) (a b : Arr) (c : Memory) :
    (m.setArr a c).arr b = if b = a then c else m.arr b := by
  by_cases h : b = a
  · subst h
    simp
  · simp [h, Storage.arr_setArr_other]

/-- A read after a write, at any cell of any array. -/
theorem Storage.read_write (m : Storage) (a b : Arr) (k j : Nat) (v : Byte) :
    (m.write a k v).read b j = if b = a ∧ j = k then v else m.read b j := by
  unfold Storage.write Storage.read
  rw [Storage.arr_setArr]
  by_cases h : b = a
  · subst h
    rw [if_pos rfl, Sparse.get_set]
    simp
  · simp [h]

@[simp] theorem Storage.read_write_same (m : Storage) (a : Arr) (k : Nat) (v : Byte) : (m.write a k v).read a k = v := by
  simp [Storage.read_write]

/-- A read after a load, at any cell of any array. -/
theorem Storage.read_load (m : Storage) (a b : Arr) (k j : Nat) (vs : List Byte) :
    (m.load a k vs).read b j = if b = a ∧ k ≤ j ∧ j < k + vs.length then vs.getD (j - k) 0#8 else m.read b j := by
  unfold Storage.load Storage.read
  rw [Storage.arr_setArr]
  by_cases h : b = a
  · subst h
    rw [if_pos rfl, Sparse.get_load]
    simp
  · simp [h]

theorem Storage.wf_iff (m : Storage) : m.wf = true ↔ ∀ a, Memory.wf (arrSize a) (m.arr a) = true := by
  unfold Storage.wf
  constructor
  · intro h a
    rw [List.all_eq_true] at h
    exact h a (by cases a <;> simp)
  · intro h
    rw [List.all_eq_true]
    exact fun a _ => h a

/-- A write to a cell that exists keeps the storage in canonical form. -/
theorem Storage.wf_write (m : Storage) (a : Arr) (k : Nat) (v : Byte) (hk : k < arrSize a) (h : m.wf = true) :
    (m.write a k v).wf = true := by
  rw [Storage.wf_iff] at *
  intro b
  unfold Storage.write
  rw [Storage.arr_setArr]
  split
  · rename_i hb
    subst hb
    exact Sparse.canon_set _ _ _ _ _ hk (h b)
  · exact h b

/-- A load into cells that exist keeps the storage in canonical form. -/
theorem Storage.wf_load (m : Storage) (a : Arr) (k : Nat) (vs : List Byte) (hk : k + vs.length ≤ arrSize a)
    (h : m.wf = true) : (m.load a k vs).wf = true := by
  rw [Storage.wf_iff] at *
  intro b
  unfold Storage.load
  rw [Storage.arr_setArr]
  split
  · rename_i hb
    subst hb
    exact Sparse.canon_load _ _ _ _ _ hk (h b)
  · exact h b

theorem Storage.setArr_setArr (m : Storage) (a : Arr) (c c' : Memory) : (m.setArr a c).setArr a c' = m.setArr a c' := by
  cases a <;> rfl

/-- A second write to a cell makes the first one void. -/
theorem Storage.write_write (m : Storage) (a : Arr) (k : Nat) (v w : Byte) :
    (m.write a k v).write a k w = m.write a k w := by
  unfold Storage.write
  rw [Storage.arr_setArr_same, Storage.setArr_setArr, Sparse.set_set]

/-- The storage the block has at reset is in canonical form. -/
theorem State.reset_mem_wf : State.reset.mem.wf = true := by decide

end Sys2Proof.Machine
end

