-- ==== Sys2Proof/Laws/State.lean ====
section
/-! SUPPORT. What each update of the state leaves unchanged, one lemma per component, and what it writes. No later proof
needs to unfold a record update. -/

namespace Sys2Proof.Machine

@[simp] theorem raiseFatal_cfg (c : FatalCause) (s : State) : (raiseFatal c s).cfg = s.cfg := rfl
@[simp] theorem raiseFatal_mem (c : FatalCause) (s : State) : (raiseFatal c s).mem = s.mem := rfl
@[simp] theorem raiseFatal_inBoot (c : FatalCause) (s : State) : (raiseFatal c s).inBoot = s.inBoot := rfl
@[simp] theorem raiseFatal_timer (c : FatalCause) (s : State) : (raiseFatal c s).timer = s.timer := rfl
@[simp] theorem raiseFatal_tile (c : FatalCause) (s : State) : (raiseFatal c s).tile = s.tile := rfl
@[simp] theorem raiseFatal_sprites (c : FatalCause) (s : State) : (raiseFatal c s).sprites = s.sprites := rfl
@[simp] theorem raiseFatal_pipe (c : FatalCause) (s : State) : (raiseFatal c s).pipe = s.pipe := rfl
@[simp] theorem raiseFatal_fb (c : FatalCause) (s : State) : (raiseFatal c s).fb = s.fb := rfl
@[simp] theorem raiseFatal_strobes (c : FatalCause) (s : State) : (raiseFatal c s).strobes = s.strobes := rfl
@[simp] theorem raiseFatal_moves (c : FatalCause) (s : State) : (raiseFatal c s).moves = s.moves := rfl
@[simp] theorem raiseFatal_draws (c : FatalCause) (s : State) : (raiseFatal c s).draws = s.draws := rfl

@[simp] theorem respond_cfg (p : Port) (r : Rsp) (s : State) : (respond p r s).cfg = s.cfg := rfl
@[simp] theorem respond_mem (p : Port) (r : Rsp) (s : State) : (respond p r s).mem = s.mem := rfl
@[simp] theorem respond_inBoot (p : Port) (r : Rsp) (s : State) : (respond p r s).inBoot = s.inBoot := rfl
@[simp] theorem respond_timer (p : Port) (r : Rsp) (s : State) : (respond p r s).timer = s.timer := rfl
@[simp] theorem respond_tile (p : Port) (r : Rsp) (s : State) : (respond p r s).tile = s.tile := rfl
@[simp] theorem respond_sprites (p : Port) (r : Rsp) (s : State) : (respond p r s).sprites = s.sprites := rfl
@[simp] theorem respond_pipe (p : Port) (r : Rsp) (s : State) : (respond p r s).pipe = s.pipe := rfl
@[simp] theorem respond_fb (p : Port) (r : Rsp) (s : State) : (respond p r s).fb = s.fb := rfl
@[simp] theorem respond_strobes (p : Port) (r : Rsp) (s : State) : (respond p r s).strobes = s.strobes := rfl
@[simp] theorem respond_moves (p : Port) (r : Rsp) (s : State) : (respond p r s).moves = s.moves := rfl
@[simp] theorem respond_draws (p : Port) (r : Rsp) (s : State) : (respond p r s).draws = s.draws := rfl

@[simp] theorem failMalformed_cfg (p : Port) (s : State) : (failMalformed p s).cfg = s.cfg := rfl
@[simp] theorem failMalformed_mem (p : Port) (s : State) : (failMalformed p s).mem = s.mem := rfl
@[simp] theorem failMalformed_inBoot (p : Port) (s : State) : (failMalformed p s).inBoot = s.inBoot := rfl
@[simp] theorem failMalformed_timer (p : Port) (s : State) : (failMalformed p s).timer = s.timer := rfl
@[simp] theorem failMalformed_tile (p : Port) (s : State) : (failMalformed p s).tile = s.tile := rfl
@[simp] theorem failMalformed_sprites (p : Port) (s : State) : (failMalformed p s).sprites = s.sprites := rfl
@[simp] theorem failMalformed_pipe (p : Port) (s : State) : (failMalformed p s).pipe = s.pipe := rfl
@[simp] theorem failMalformed_fb (p : Port) (s : State) : (failMalformed p s).fb = s.fb := rfl
@[simp] theorem failMalformed_strobes (p : Port) (s : State) : (failMalformed p s).strobes = s.strobes := rfl
@[simp] theorem failMalformed_moves (p : Port) (s : State) : (failMalformed p s).moves = s.moves := rfl
@[simp] theorem failMalformed_draws (p : Port) (s : State) : (failMalformed p s).draws = s.draws := rfl

@[simp] theorem failSevered_cfg (p : Port) (s : State) : (failSevered p s).cfg = s.cfg := rfl
@[simp] theorem failSevered_mem (p : Port) (s : State) : (failSevered p s).mem = s.mem := rfl
@[simp] theorem failSevered_inBoot (p : Port) (s : State) : (failSevered p s).inBoot = s.inBoot := rfl
@[simp] theorem failSevered_timer (p : Port) (s : State) : (failSevered p s).timer = s.timer := rfl
@[simp] theorem failSevered_tile (p : Port) (s : State) : (failSevered p s).tile = s.tile := rfl
@[simp] theorem failSevered_sprites (p : Port) (s : State) : (failSevered p s).sprites = s.sprites := rfl
@[simp] theorem failSevered_pipe (p : Port) (s : State) : (failSevered p s).pipe = s.pipe := rfl
@[simp] theorem failSevered_fb (p : Port) (s : State) : (failSevered p s).fb = s.fb := rfl
@[simp] theorem failSevered_strobes (p : Port) (s : State) : (failSevered p s).strobes = s.strobes := rfl
@[simp] theorem failSevered_moves (p : Port) (s : State) : (failSevered p s).moves = s.moves := rfl
@[simp] theorem failSevered_draws (p : Port) (s : State) : (failSevered p s).draws = s.draws := rfl

@[simp] theorem enqueueRequest_cfg (p : Port) (w : ReqWord) (s : State) : (enqueueRequest p w s).cfg = s.cfg := rfl
@[simp] theorem enqueueRequest_mem (p : Port) (w : ReqWord) (s : State) : (enqueueRequest p w s).mem = s.mem := rfl
@[simp] theorem enqueueRequest_inBoot (p : Port) (w : ReqWord) (s : State) : (enqueueRequest p w s).inBoot = s.inBoot := rfl
@[simp] theorem enqueueRequest_timer (p : Port) (w : ReqWord) (s : State) : (enqueueRequest p w s).timer = s.timer := rfl
@[simp] theorem enqueueRequest_tile (p : Port) (w : ReqWord) (s : State) : (enqueueRequest p w s).tile = s.tile := rfl
@[simp] theorem enqueueRequest_sprites (p : Port) (w : ReqWord) (s : State) : (enqueueRequest p w s).sprites = s.sprites := rfl
@[simp] theorem enqueueRequest_pipe (p : Port) (w : ReqWord) (s : State) : (enqueueRequest p w s).pipe = s.pipe := rfl
@[simp] theorem enqueueRequest_fb (p : Port) (w : ReqWord) (s : State) : (enqueueRequest p w s).fb = s.fb := rfl
@[simp] theorem enqueueRequest_strobes (p : Port) (w : ReqWord) (s : State) : (enqueueRequest p w s).strobes = s.strobes := rfl
@[simp] theorem enqueueRequest_moves (p : Port) (w : ReqWord) (s : State) : (enqueueRequest p w s).moves = s.moves := rfl
@[simp] theorem enqueueRequest_draws (p : Port) (w : ReqWord) (s : State) : (enqueueRequest p w s).draws = s.draws := rfl

@[simp] theorem takeHead_cfg (p : Port) (q : List Port) (s : State) : (takeHead p q s).cfg = s.cfg := rfl
@[simp] theorem takeHead_mem (p : Port) (q : List Port) (s : State) : (takeHead p q s).mem = s.mem := rfl
@[simp] theorem takeHead_inBoot (p : Port) (q : List Port) (s : State) : (takeHead p q s).inBoot = s.inBoot := rfl
@[simp] theorem takeHead_timer (p : Port) (q : List Port) (s : State) : (takeHead p q s).timer = s.timer := rfl
@[simp] theorem takeHead_tile (p : Port) (q : List Port) (s : State) : (takeHead p q s).tile = s.tile := rfl
@[simp] theorem takeHead_sprites (p : Port) (q : List Port) (s : State) : (takeHead p q s).sprites = s.sprites := rfl
@[simp] theorem takeHead_pipe (p : Port) (q : List Port) (s : State) : (takeHead p q s).pipe = s.pipe := rfl
@[simp] theorem takeHead_fb (p : Port) (q : List Port) (s : State) : (takeHead p q s).fb = s.fb := rfl
@[simp] theorem takeHead_strobes (p : Port) (q : List Port) (s : State) : (takeHead p q s).strobes = s.strobes := rfl
@[simp] theorem takeHead_moves (p : Port) (q : List Port) (s : State) : (takeHead p q s).moves = s.moves := rfl
@[simp] theorem takeHead_draws (p : Port) (q : List Port) (s : State) : (takeHead p q s).draws = s.draws := rfl

@[simp] theorem tileResetAll_cfg (s : State) : (tileResetAll s).cfg = s.cfg := rfl
@[simp] theorem tileResetAll_mem (s : State) : (tileResetAll s).mem = s.mem := rfl
@[simp] theorem tileResetAll_inBoot (s : State) : (tileResetAll s).inBoot = s.inBoot := rfl
@[simp] theorem tileResetAll_arb (s : State) : (tileResetAll s).arb = s.arb := rfl
@[simp] theorem tileResetAll_timer (s : State) : (tileResetAll s).timer = s.timer := rfl
@[simp] theorem tileResetAll_sprites (s : State) : (tileResetAll s).sprites = s.sprites := rfl
@[simp] theorem tileResetAll_pipe (s : State) : (tileResetAll s).pipe = s.pipe := rfl
@[simp] theorem tileResetAll_fb (s : State) : (tileResetAll s).fb = s.fb := rfl
@[simp] theorem tileResetAll_strobes (s : State) : (tileResetAll s).strobes = s.strobes := rfl
@[simp] theorem tileResetAll_moves (s : State) : (tileResetAll s).moves = s.moves := rfl
@[simp] theorem tileResetAll_draws (s : State) : (tileResetAll s).draws = s.draws := rfl

@[simp] theorem newLine_cfg (s : State) : (newLine s).cfg = s.cfg := rfl
@[simp] theorem newLine_mem (s : State) : (newLine s).mem = s.mem := rfl
@[simp] theorem newLine_inBoot (s : State) : (newLine s).inBoot = s.inBoot := rfl
@[simp] theorem newLine_arb (s : State) : (newLine s).arb = s.arb := rfl
@[simp] theorem newLine_timer (s : State) : (newLine s).timer = s.timer := rfl
@[simp] theorem newLine_tile (s : State) : (newLine s).tile = s.tile := rfl
@[simp] theorem newLine_pipe (s : State) : (newLine s).pipe = s.pipe := rfl
@[simp] theorem newLine_fb (s : State) : (newLine s).fb = s.fb := rfl
@[simp] theorem newLine_strobes (s : State) : (newLine s).strobes = s.strobes := rfl
@[simp] theorem newLine_moves (s : State) : (newLine s).moves = s.moves := rfl
@[simp] theorem newLine_draws (s : State) : (newLine s).draws = s.draws := rfl

@[simp] theorem consume_cfg (n : Fin 40) (s : State) : (consume n s).cfg = s.cfg := rfl
@[simp] theorem consume_mem (n : Fin 40) (s : State) : (consume n s).mem = s.mem := rfl
@[simp] theorem consume_inBoot (n : Fin 40) (s : State) : (consume n s).inBoot = s.inBoot := rfl
@[simp] theorem consume_arb (n : Fin 40) (s : State) : (consume n s).arb = s.arb := rfl
@[simp] theorem consume_timer (n : Fin 40) (s : State) : (consume n s).timer = s.timer := rfl
@[simp] theorem consume_tile (n : Fin 40) (s : State) : (consume n s).tile = s.tile := rfl
@[simp] theorem consume_pipe (n : Fin 40) (s : State) : (consume n s).pipe = s.pipe := rfl
@[simp] theorem consume_fb (n : Fin 40) (s : State) : (consume n s).fb = s.fb := rfl
@[simp] theorem consume_strobes (n : Fin 40) (s : State) : (consume n s).strobes = s.strobes := rfl
@[simp] theorem consume_moves (n : Fin 40) (s : State) : (consume n s).moves = s.moves := rfl
@[simp] theorem consume_draws (n : Fin 40) (s : State) : (consume n s).draws = s.draws := rfl

@[simp] theorem lineReset_cfg (s : State) : (lineReset s).cfg = s.cfg := rfl
@[simp] theorem lineReset_mem (s : State) : (lineReset s).mem = s.mem := rfl
@[simp] theorem lineReset_inBoot (s : State) : (lineReset s).inBoot = s.inBoot := rfl
@[simp] theorem lineReset_arb (s : State) : (lineReset s).arb = s.arb := rfl
@[simp] theorem lineReset_timer (s : State) : (lineReset s).timer = s.timer := rfl
@[simp] theorem lineReset_tile (s : State) : (lineReset s).tile = s.tile := rfl
@[simp] theorem lineReset_sprites (s : State) : (lineReset s).sprites = s.sprites := rfl
@[simp] theorem lineReset_fb (s : State) : (lineReset s).fb = s.fb := rfl
@[simp] theorem lineReset_strobes (s : State) : (lineReset s).strobes = s.strobes := rfl
@[simp] theorem lineReset_moves (s : State) : (lineReset s).moves = s.moves := rfl
@[simp] theorem lineReset_draws (s : State) : (lineReset s).draws = s.draws := rfl

@[simp] theorem setPhase_cfg (b : Bool) (s : State) : (setPhase b s).cfg = s.cfg := rfl
@[simp] theorem setPhase_mem (b : Bool) (s : State) : (setPhase b s).mem = s.mem := rfl
@[simp] theorem setPhase_inBoot (b : Bool) (s : State) : (setPhase b s).inBoot = s.inBoot := rfl
@[simp] theorem setPhase_arb (b : Bool) (s : State) : (setPhase b s).arb = s.arb := rfl
@[simp] theorem setPhase_timer (b : Bool) (s : State) : (setPhase b s).timer = s.timer := rfl
@[simp] theorem setPhase_tile (b : Bool) (s : State) : (setPhase b s).tile = s.tile := rfl
@[simp] theorem setPhase_sprites (b : Bool) (s : State) : (setPhase b s).sprites = s.sprites := rfl
@[simp] theorem setPhase_fb (b : Bool) (s : State) : (setPhase b s).fb = s.fb := rfl
@[simp] theorem setPhase_strobes (b : Bool) (s : State) : (setPhase b s).strobes = s.strobes := rfl
@[simp] theorem setPhase_moves (b : Bool) (s : State) : (setPhase b s).moves = s.moves := rfl
@[simp] theorem setPhase_draws (b : Bool) (s : State) : (setPhase b s).draws = s.draws := rfl

@[simp] theorem enqueueStage_cfg (s : State) : (enqueueStage s).cfg = s.cfg := rfl
@[simp] theorem enqueueStage_mem (s : State) : (enqueueStage s).mem = s.mem := rfl
@[simp] theorem enqueueStage_inBoot (s : State) : (enqueueStage s).inBoot = s.inBoot := rfl
@[simp] theorem enqueueStage_arb (s : State) : (enqueueStage s).arb = s.arb := rfl
@[simp] theorem enqueueStage_timer (s : State) : (enqueueStage s).timer = s.timer := rfl
@[simp] theorem enqueueStage_tile (s : State) : (enqueueStage s).tile = s.tile := rfl
@[simp] theorem enqueueStage_sprites (s : State) : (enqueueStage s).sprites = s.sprites := rfl
@[simp] theorem enqueueStage_fb (s : State) : (enqueueStage s).fb = s.fb := rfl
@[simp] theorem enqueueStage_strobes (s : State) : (enqueueStage s).strobes = s.strobes := rfl
@[simp] theorem enqueueStage_moves (s : State) : (enqueueStage s).moves = s.moves := rfl
@[simp] theorem enqueueStage_draws (s : State) : (enqueueStage s).draws = s.draws := rfl

@[simp] theorem pushStage_cfg (s : State) : (pushStage s).cfg = s.cfg := rfl
@[simp] theorem pushStage_mem (s : State) : (pushStage s).mem = s.mem := rfl
@[simp] theorem pushStage_inBoot (s : State) : (pushStage s).inBoot = s.inBoot := rfl
@[simp] theorem pushStage_arb (s : State) : (pushStage s).arb = s.arb := rfl
@[simp] theorem pushStage_timer (s : State) : (pushStage s).timer = s.timer := rfl
@[simp] theorem pushStage_tile (s : State) : (pushStage s).tile = s.tile := rfl
@[simp] theorem pushStage_sprites (s : State) : (pushStage s).sprites = s.sprites := rfl
@[simp] theorem pushStage_fb (s : State) : (pushStage s).fb = s.fb := rfl
@[simp] theorem pushStage_strobes (s : State) : (pushStage s).strobes = s.strobes := rfl
@[simp] theorem pushStage_moves (s : State) : (pushStage s).moves = s.moves := rfl
@[simp] theorem pushStage_draws (s : State) : (pushStage s).draws = s.draws := rfl

@[simp] theorem strobe_cfg (e : Strobe) (s : State) : (strobe e s).cfg = s.cfg := rfl
@[simp] theorem strobe_mem (e : Strobe) (s : State) : (strobe e s).mem = s.mem := rfl
@[simp] theorem strobe_inBoot (e : Strobe) (s : State) : (strobe e s).inBoot = s.inBoot := rfl
@[simp] theorem strobe_arb (e : Strobe) (s : State) : (strobe e s).arb = s.arb := rfl
@[simp] theorem strobe_timer (e : Strobe) (s : State) : (strobe e s).timer = s.timer := rfl
@[simp] theorem strobe_tile (e : Strobe) (s : State) : (strobe e s).tile = s.tile := rfl
@[simp] theorem strobe_sprites (e : Strobe) (s : State) : (strobe e s).sprites = s.sprites := rfl
@[simp] theorem strobe_pipe (e : Strobe) (s : State) : (strobe e s).pipe = s.pipe := rfl
@[simp] theorem strobe_fb (e : Strobe) (s : State) : (strobe e s).fb = s.fb := rfl
@[simp] theorem strobe_moves (e : Strobe) (s : State) : (strobe e s).moves = s.moves := rfl
@[simp] theorem strobe_draws (e : Strobe) (s : State) : (strobe e s).draws = s.draws := rfl

@[simp] theorem countOn_cfg (s : State) : (countOn s).cfg = s.cfg := rfl
@[simp] theorem countOn_mem (s : State) : (countOn s).mem = s.mem := rfl
@[simp] theorem countOn_inBoot (s : State) : (countOn s).inBoot = s.inBoot := rfl
@[simp] theorem countOn_arb (s : State) : (countOn s).arb = s.arb := rfl
@[simp] theorem countOn_tile (s : State) : (countOn s).tile = s.tile := rfl
@[simp] theorem countOn_sprites (s : State) : (countOn s).sprites = s.sprites := rfl
@[simp] theorem countOn_pipe (s : State) : (countOn s).pipe = s.pipe := rfl
@[simp] theorem countOn_fb (s : State) : (countOn s).fb = s.fb := rfl
@[simp] theorem countOn_strobes (s : State) : (countOn s).strobes = s.strobes := rfl
@[simp] theorem countOn_moves (s : State) : (countOn s).moves = s.moves := rfl
@[simp] theorem countOn_draws (s : State) : (countOn s).draws = s.draws := rfl

@[simp] theorem enterMode_cfg (m : Mode) (s : State) : (enterMode m s).cfg = s.cfg := rfl
@[simp] theorem enterMode_mem (m : Mode) (s : State) : (enterMode m s).mem = s.mem := rfl
@[simp] theorem enterMode_inBoot (m : Mode) (s : State) : (enterMode m s).inBoot = s.inBoot := rfl
@[simp] theorem enterMode_arb (m : Mode) (s : State) : (enterMode m s).arb = s.arb := rfl
@[simp] theorem enterMode_tile (m : Mode) (s : State) : (enterMode m s).tile = s.tile := rfl
@[simp] theorem enterMode_sprites (m : Mode) (s : State) : (enterMode m s).sprites = s.sprites := rfl
@[simp] theorem enterMode_pipe (m : Mode) (s : State) : (enterMode m s).pipe = s.pipe := rfl
@[simp] theorem enterMode_fb (m : Mode) (s : State) : (enterMode m s).fb = s.fb := rfl
@[simp] theorem enterMode_strobes (m : Mode) (s : State) : (enterMode m s).strobes = s.strobes := rfl
@[simp] theorem enterMode_moves (m : Mode) (s : State) : (enterMode m s).moves = s.moves := rfl
@[simp] theorem enterMode_draws (m : Mode) (s : State) : (enterMode m s).draws = s.draws := rfl

@[simp] theorem setLine_cfg (n : BitVec 8) (s : State) : (setLine n s).cfg = s.cfg := rfl
@[simp] theorem setLine_mem (n : BitVec 8) (s : State) : (setLine n s).mem = s.mem := rfl
@[simp] theorem setLine_inBoot (n : BitVec 8) (s : State) : (setLine n s).inBoot = s.inBoot := rfl
@[simp] theorem setLine_arb (n : BitVec 8) (s : State) : (setLine n s).arb = s.arb := rfl
@[simp] theorem setLine_tile (n : BitVec 8) (s : State) : (setLine n s).tile = s.tile := rfl
@[simp] theorem setLine_sprites (n : BitVec 8) (s : State) : (setLine n s).sprites = s.sprites := rfl
@[simp] theorem setLine_pipe (n : BitVec 8) (s : State) : (setLine n s).pipe = s.pipe := rfl
@[simp] theorem setLine_fb (n : BitVec 8) (s : State) : (setLine n s).fb = s.fb := rfl
@[simp] theorem setLine_strobes (n : BitVec 8) (s : State) : (setLine n s).strobes = s.strobes := rfl
@[simp] theorem setLine_moves (n : BitVec 8) (s : State) : (setLine n s).moves = s.moves := rfl
@[simp] theorem setLine_draws (n : BitVec 8) (s : State) : (setLine n s).draws = s.draws := rfl

@[simp] theorem emitLine_cfg (s : State) : (emitLine s).cfg = s.cfg := rfl
@[simp] theorem emitLine_mem (s : State) : (emitLine s).mem = s.mem := rfl
@[simp] theorem emitLine_inBoot (s : State) : (emitLine s).inBoot = s.inBoot := rfl
@[simp] theorem emitLine_arb (s : State) : (emitLine s).arb = s.arb := rfl
@[simp] theorem emitLine_timer (s : State) : (emitLine s).timer = s.timer := rfl
@[simp] theorem emitLine_tile (s : State) : (emitLine s).tile = s.tile := rfl
@[simp] theorem emitLine_sprites (s : State) : (emitLine s).sprites = s.sprites := rfl
@[simp] theorem emitLine_pipe (s : State) : (emitLine s).pipe = s.pipe := rfl
@[simp] theorem emitLine_moves (s : State) : (emitLine s).moves = s.moves := rfl
@[simp] theorem emitLine_draws (s : State) : (emitLine s).draws = s.draws := rfl

@[simp] theorem endOamScan_cfg (s : State) : (endOamScan s).cfg = s.cfg := rfl
@[simp] theorem endOamScan_mem (s : State) : (endOamScan s).mem = s.mem := rfl
@[simp] theorem endOamScan_inBoot (s : State) : (endOamScan s).inBoot = s.inBoot := rfl
@[simp] theorem endOamScan_arb (s : State) : (endOamScan s).arb = s.arb := rfl
@[simp] theorem endOamScan_tile (s : State) : (endOamScan s).tile = s.tile := rfl
@[simp] theorem endOamScan_fb (s : State) : (endOamScan s).fb = s.fb := rfl
@[simp] theorem endOamScan_strobes (s : State) : (endOamScan s).strobes = s.strobes := rfl
@[simp] theorem endOamScan_moves (s : State) : (endOamScan s).moves = s.moves := rfl
@[simp] theorem endOamScan_draws (s : State) : (endOamScan s).draws = s.draws := rfl

@[simp] theorem loadBoot_cfg (b : List Byte) (s : State) : (loadBoot b s).cfg = s.cfg := rfl
@[simp] theorem loadBoot_inBoot (b : List Byte) (s : State) : (loadBoot b s).inBoot = s.inBoot := rfl
@[simp] theorem loadBoot_arb (b : List Byte) (s : State) : (loadBoot b s).arb = s.arb := rfl
@[simp] theorem loadBoot_timer (b : List Byte) (s : State) : (loadBoot b s).timer = s.timer := rfl
@[simp] theorem loadBoot_tile (b : List Byte) (s : State) : (loadBoot b s).tile = s.tile := rfl
@[simp] theorem loadBoot_sprites (b : List Byte) (s : State) : (loadBoot b s).sprites = s.sprites := rfl
@[simp] theorem loadBoot_pipe (b : List Byte) (s : State) : (loadBoot b s).pipe = s.pipe := rfl
@[simp] theorem loadBoot_fb (b : List Byte) (s : State) : (loadBoot b s).fb = s.fb := rfl
@[simp] theorem loadBoot_strobes (b : List Byte) (s : State) : (loadBoot b s).strobes = s.strobes := rfl
@[simp] theorem loadBoot_moves (b : List Byte) (s : State) : (loadBoot b s).moves = s.moves := rfl
@[simp] theorem loadBoot_draws (b : List Byte) (s : State) : (loadBoot b s).draws = s.draws := rfl

@[simp] theorem loadRom_cfg (b : List Byte) (s : State) : (loadRom b s).cfg = s.cfg := rfl
@[simp] theorem loadRom_inBoot (b : List Byte) (s : State) : (loadRom b s).inBoot = s.inBoot := rfl
@[simp] theorem loadRom_arb (b : List Byte) (s : State) : (loadRom b s).arb = s.arb := rfl
@[simp] theorem loadRom_timer (b : List Byte) (s : State) : (loadRom b s).timer = s.timer := rfl
@[simp] theorem loadRom_tile (b : List Byte) (s : State) : (loadRom b s).tile = s.tile := rfl
@[simp] theorem loadRom_sprites (b : List Byte) (s : State) : (loadRom b s).sprites = s.sprites := rfl
@[simp] theorem loadRom_pipe (b : List Byte) (s : State) : (loadRom b s).pipe = s.pipe := rfl
@[simp] theorem loadRom_fb (b : List Byte) (s : State) : (loadRom b s).fb = s.fb := rfl
@[simp] theorem loadRom_strobes (b : List Byte) (s : State) : (loadRom b s).strobes = s.strobes := rfl
@[simp] theorem loadRom_moves (b : List Byte) (s : State) : (loadRom b s).moves = s.moves := rfl
@[simp] theorem loadRom_draws (b : List Byte) (s : State) : (loadRom b s).draws = s.draws := rfl

@[simp] theorem setInBoot_cfg (b : Bool) (s : State) : (setInBoot b s).cfg = s.cfg := rfl
@[simp] theorem setInBoot_mem (b : Bool) (s : State) : (setInBoot b s).mem = s.mem := rfl
@[simp] theorem setInBoot_arb (b : Bool) (s : State) : (setInBoot b s).arb = s.arb := rfl
@[simp] theorem setInBoot_timer (b : Bool) (s : State) : (setInBoot b s).timer = s.timer := rfl
@[simp] theorem setInBoot_tile (b : Bool) (s : State) : (setInBoot b s).tile = s.tile := rfl
@[simp] theorem setInBoot_sprites (b : Bool) (s : State) : (setInBoot b s).sprites = s.sprites := rfl
@[simp] theorem setInBoot_pipe (b : Bool) (s : State) : (setInBoot b s).pipe = s.pipe := rfl
@[simp] theorem setInBoot_fb (b : Bool) (s : State) : (setInBoot b s).fb = s.fb := rfl
@[simp] theorem setInBoot_strobes (b : Bool) (s : State) : (setInBoot b s).strobes = s.strobes := rfl
@[simp] theorem setInBoot_moves (b : Bool) (s : State) : (setInBoot b s).moves = s.moves := rfl
@[simp] theorem setInBoot_draws (b : Bool) (s : State) : (setInBoot b s).draws = s.draws := rfl

@[simp] theorem sever_cfg (s : State) : (sever s).cfg = s.cfg := rfl
@[simp] theorem sever_mem (s : State) : (sever s).mem = s.mem := rfl
@[simp] theorem sever_inBoot (s : State) : (sever s).inBoot = s.inBoot := rfl
@[simp] theorem sever_timer (s : State) : (sever s).timer = s.timer := rfl
@[simp] theorem sever_tile (s : State) : (sever s).tile = s.tile := rfl
@[simp] theorem sever_sprites (s : State) : (sever s).sprites = s.sprites := rfl
@[simp] theorem sever_pipe (s : State) : (sever s).pipe = s.pipe := rfl
@[simp] theorem sever_fb (s : State) : (sever s).fb = s.fb := rfl
@[simp] theorem sever_strobes (s : State) : (sever s).strobes = s.strobes := rfl
@[simp] theorem sever_moves (s : State) : (sever s).moves = s.moves := rfl
@[simp] theorem sever_draws (s : State) : (sever s).draws = s.draws := rfl

@[simp] theorem beginStep_cfg (s : State) : (beginStep s).cfg = s.cfg := rfl
@[simp] theorem beginStep_mem (s : State) : (beginStep s).mem = s.mem := rfl
@[simp] theorem beginStep_inBoot (s : State) : (beginStep s).inBoot = s.inBoot := rfl
@[simp] theorem beginStep_timer (s : State) : (beginStep s).timer = s.timer := rfl
@[simp] theorem beginStep_tile (s : State) : (beginStep s).tile = s.tile := rfl
@[simp] theorem beginStep_sprites (s : State) : (beginStep s).sprites = s.sprites := rfl
@[simp] theorem beginStep_pipe (s : State) : (beginStep s).pipe = s.pipe := rfl
@[simp] theorem beginStep_fb (s : State) : (beginStep s).fb = s.fb := rfl
@[simp] theorem beginStep_moves (s : State) : (beginStep s).moves = s.moves := rfl
@[simp] theorem beginStep_draws (s : State) : (beginStep s).draws = s.draws := rfl

@[simp] theorem loadScanned_cfg (c : Nat) (w : Word) (s : State) : (loadScanned c w s).cfg = s.cfg := by
  unfold loadScanned; split <;> rfl
@[simp] theorem loadScanned_mem (c : Nat) (w : Word) (s : State) : (loadScanned c w s).mem = s.mem := by
  unfold loadScanned; split <;> rfl
@[simp] theorem loadScanned_inBoot (c : Nat) (w : Word) (s : State) : (loadScanned c w s).inBoot = s.inBoot := by
  unfold loadScanned; split <;> rfl
@[simp] theorem loadScanned_arb (c : Nat) (w : Word) (s : State) : (loadScanned c w s).arb = s.arb := by
  unfold loadScanned; split <;> rfl
@[simp] theorem loadScanned_timer (c : Nat) (w : Word) (s : State) : (loadScanned c w s).timer = s.timer := by
  unfold loadScanned; split <;> rfl
@[simp] theorem loadScanned_tile (c : Nat) (w : Word) (s : State) : (loadScanned c w s).tile = s.tile := by
  unfold loadScanned; split <;> rfl
@[simp] theorem loadScanned_fb (c : Nat) (w : Word) (s : State) : (loadScanned c w s).fb = s.fb := by
  unfold loadScanned; split <;> rfl
@[simp] theorem loadScanned_pipe (c : Nat) (w : Word) (s : State) : (loadScanned c w s).pipe = s.pipe := by
  unfold loadScanned; split <;> rfl
@[simp] theorem loadScanned_strobes (c : Nat) (w : Word) (s : State) : (loadScanned c w s).strobes = s.strobes := by
  unfold loadScanned; split <;> rfl
@[simp] theorem loadScanned_moves (c : Nat) (w : Word) (s : State) : (loadScanned c w s).moves = s.moves := by
  unfold loadScanned; split <;> rfl
@[simp] theorem loadScanned_draws (c : Nat) (w : Word) (s : State) : (loadScanned c w s).draws = s.draws := by
  unfold loadScanned; split <;> rfl
@[simp] theorem writeVideoByte_cfg (k : Nat) (v : Byte) (s : State) : (writeVideoByte k v s).cfg = s.cfg := by
  unfold writeVideoByte; simp only; split <;> rfl
@[simp] theorem writeVideoByte_inBoot (k : Nat) (v : Byte) (s : State) : (writeVideoByte k v s).inBoot = s.inBoot := by
  unfold writeVideoByte; simp only; split <;> rfl
@[simp] theorem writeVideoByte_arb (k : Nat) (v : Byte) (s : State) : (writeVideoByte k v s).arb = s.arb := by
  unfold writeVideoByte; simp only; split <;> rfl
@[simp] theorem writeVideoByte_timer (k : Nat) (v : Byte) (s : State) : (writeVideoByte k v s).timer = s.timer := by
  unfold writeVideoByte; simp only; split <;> rfl
@[simp] theorem writeVideoByte_sprites (k : Nat) (v : Byte) (s : State) : (writeVideoByte k v s).sprites = s.sprites := by
  unfold writeVideoByte; simp only; split <;> rfl
@[simp] theorem writeVideoByte_pipe (k : Nat) (v : Byte) (s : State) : (writeVideoByte k v s).pipe = s.pipe := by
  unfold writeVideoByte; simp only; split <;> rfl
@[simp] theorem writeVideoByte_fb (k : Nat) (v : Byte) (s : State) : (writeVideoByte k v s).fb = s.fb := by
  unfold writeVideoByte; simp only; split <;> rfl
@[simp] theorem writeVideoByte_strobes (k : Nat) (v : Byte) (s : State) : (writeVideoByte k v s).strobes = s.strobes := by
  unfold writeVideoByte; simp only; split <;> rfl
@[simp] theorem writeVideoByte_moves (k : Nat) (v : Byte) (s : State) : (writeVideoByte k v s).moves = s.moves := by
  unfold writeVideoByte; simp only; split <;> rfl
@[simp] theorem writeVideoByte_draws (k : Nat) (v : Byte) (s : State) : (writeVideoByte k v s).draws = s.draws := by
  unfold writeVideoByte; simp only; split <;> rfl
@[simp] theorem storeByte_cfg (k : Arr × Nat) (v : Byte) (s : State) : (storeByte k v s).cfg = s.cfg := by
  unfold storeByte; split <;> simp
@[simp] theorem storeByte_inBoot (k : Arr × Nat) (v : Byte) (s : State) : (storeByte k v s).inBoot = s.inBoot := by
  unfold storeByte; split <;> simp
@[simp] theorem storeByte_arb (k : Arr × Nat) (v : Byte) (s : State) : (storeByte k v s).arb = s.arb := by
  unfold storeByte; split <;> simp
@[simp] theorem storeByte_timer (k : Arr × Nat) (v : Byte) (s : State) : (storeByte k v s).timer = s.timer := by
  unfold storeByte; split <;> simp
@[simp] theorem storeByte_sprites (k : Arr × Nat) (v : Byte) (s : State) : (storeByte k v s).sprites = s.sprites := by
  unfold storeByte; split <;> simp
@[simp] theorem storeByte_pipe (k : Arr × Nat) (v : Byte) (s : State) : (storeByte k v s).pipe = s.pipe := by
  unfold storeByte; split <;> simp
@[simp] theorem storeByte_fb (k : Arr × Nat) (v : Byte) (s : State) : (storeByte k v s).fb = s.fb := by
  unfold storeByte; split <;> simp
@[simp] theorem storeByte_strobes (k : Arr × Nat) (v : Byte) (s : State) : (storeByte k v s).strobes = s.strobes := by
  unfold storeByte; split <;> simp
@[simp] theorem storeByte_moves (k : Arr × Nat) (v : Byte) (s : State) : (storeByte k v s).moves = s.moves := by
  unfold storeByte; split <;> simp
@[simp] theorem storeByte_draws (k : Arr × Nat) (v : Byte) (s : State) : (storeByte k v s).draws = s.draws := by
  unfold storeByte; split <;> simp
@[simp] theorem writeByte_cfg (a : Addr) (v : Byte) (s : State) : (writeByte a v s).cfg = s.cfg := by
  unfold writeByte; split <;> simp
@[simp] theorem writeByte_inBoot (a : Addr) (v : Byte) (s : State) : (writeByte a v s).inBoot = s.inBoot := by
  unfold writeByte; split <;> simp
@[simp] theorem writeByte_arb (a : Addr) (v : Byte) (s : State) : (writeByte a v s).arb = s.arb := by
  unfold writeByte; split <;> simp
@[simp] theorem writeByte_timer (a : Addr) (v : Byte) (s : State) : (writeByte a v s).timer = s.timer := by
  unfold writeByte; split <;> simp
@[simp] theorem writeByte_sprites (a : Addr) (v : Byte) (s : State) : (writeByte a v s).sprites = s.sprites := by
  unfold writeByte; split <;> simp
@[simp] theorem writeByte_pipe (a : Addr) (v : Byte) (s : State) : (writeByte a v s).pipe = s.pipe := by
  unfold writeByte; split <;> simp
@[simp] theorem writeByte_fb (a : Addr) (v : Byte) (s : State) : (writeByte a v s).fb = s.fb := by
  unfold writeByte; split <;> simp
@[simp] theorem writeByte_strobes (a : Addr) (v : Byte) (s : State) : (writeByte a v s).strobes = s.strobes := by
  unfold writeByte; split <;> simp
@[simp] theorem writeByte_moves (a : Addr) (v : Byte) (s : State) : (writeByte a v s).moves = s.moves := by
  unfold writeByte; split <;> simp
@[simp] theorem writeByte_draws (a : Addr) (v : Byte) (s : State) : (writeByte a v s).draws = s.draws := by
  unfold writeByte; split <;> simp
@[simp] theorem writeWord_cfg (a : Addr) (w : Word) (s : State) : (writeWord a w s).cfg = s.cfg := by
  unfold writeWord; simp
@[simp] theorem writeWord_inBoot (a : Addr) (w : Word) (s : State) : (writeWord a w s).inBoot = s.inBoot := by
  unfold writeWord; simp
@[simp] theorem writeWord_arb (a : Addr) (w : Word) (s : State) : (writeWord a w s).arb = s.arb := by
  unfold writeWord; simp
@[simp] theorem writeWord_timer (a : Addr) (w : Word) (s : State) : (writeWord a w s).timer = s.timer := by
  unfold writeWord; simp
@[simp] theorem writeWord_sprites (a : Addr) (w : Word) (s : State) : (writeWord a w s).sprites = s.sprites := by
  unfold writeWord; simp
@[simp] theorem writeWord_pipe (a : Addr) (w : Word) (s : State) : (writeWord a w s).pipe = s.pipe := by
  unfold writeWord; simp
@[simp] theorem writeWord_fb (a : Addr) (w : Word) (s : State) : (writeWord a w s).fb = s.fb := by
  unfold writeWord; simp
@[simp] theorem writeWord_strobes (a : Addr) (w : Word) (s : State) : (writeWord a w s).strobes = s.strobes := by
  unfold writeWord; simp
@[simp] theorem writeWord_moves (a : Addr) (w : Word) (s : State) : (writeWord a w s).moves = s.moves := by
  unfold writeWord; simp
@[simp] theorem writeWord_draws (a : Addr) (w : Word) (s : State) : (writeWord a w s).draws = s.draws := by
  unfold writeWord; simp
@[simp] theorem raiseFatal_arb_fatal (c : FatalCause) (s : State) : (raiseFatal c s).arb.fatal = true := rfl
@[simp] theorem raiseFatal_arb_cause (c : FatalCause) (s : State) : (raiseFatal c s).arb.cause = c := rfl
@[simp] theorem raiseFatal_arb_alive (c : FatalCause) (s : State) : (raiseFatal c s).arb.alive = s.arb.alive := rfl
@[simp] theorem raiseFatal_arb_queue (c : FatalCause) (s : State) : (raiseFatal c s).arb.queue = s.arb.queue := rfl
@[simp] theorem raiseFatal_arb_port (c : FatalCause) (s : State) : (raiseFatal c s).arb.port = s.arb.port := rfl
@[simp] theorem raiseFatal_arb_nextStamp (c : FatalCause) (s : State) : (raiseFatal c s).arb.nextStamp = s.arb.nextStamp := rfl
@[simp] theorem raiseFatal_arb_reqP (c : FatalCause) (s : State) : (raiseFatal c s).arb.reqP = s.arb.reqP := rfl
@[simp] theorem raiseFatal_arb_reqG (c : FatalCause) (s : State) : (raiseFatal c s).arb.reqG = s.arb.reqG := rfl
@[simp] theorem raiseFatal_arb_replyP (c : FatalCause) (s : State) : (raiseFatal c s).arb.replyP = s.arb.replyP := rfl
@[simp] theorem raiseFatal_arb_replyG (c : FatalCause) (s : State) : (raiseFatal c s).arb.replyG = s.arb.replyG := rfl

@[simp] theorem Arbiter.setReq_queue (b : Arbiter) (p : Port) (l : Latch) : (b.setReq p l).queue = b.queue := by cases p <;> rfl
@[simp] theorem Arbiter.setReply_queue (b : Arbiter) (p : Port) (r : Option Rsp) : (b.setReply p r).queue = b.queue := by cases p <;> rfl
@[simp] theorem Arbiter.release_queue (b : Arbiter) (p : Port) : (b.release p).queue = b.queue := by cases p <;> rfl
@[simp] theorem respond_arb_queue (p : Port) (r : Rsp) (s : State) : (respond p r s).arb.queue = s.arb.queue := by cases p <;> rfl
@[simp] theorem Arbiter.setReq_alive (b : Arbiter) (p : Port) (l : Latch) : (b.setReq p l).alive = b.alive := by cases p <;> rfl
@[simp] theorem Arbiter.setReply_alive (b : Arbiter) (p : Port) (r : Option Rsp) : (b.setReply p r).alive = b.alive := by cases p <;> rfl
@[simp] theorem Arbiter.release_alive (b : Arbiter) (p : Port) : (b.release p).alive = b.alive := by cases p <;> rfl
@[simp] theorem respond_arb_alive (p : Port) (r : Rsp) (s : State) : (respond p r s).arb.alive = s.arb.alive := by cases p <;> rfl
@[simp] theorem Arbiter.setReq_fatal (b : Arbiter) (p : Port) (l : Latch) : (b.setReq p l).fatal = b.fatal := by cases p <;> rfl
@[simp] theorem Arbiter.setReply_fatal (b : Arbiter) (p : Port) (r : Option Rsp) : (b.setReply p r).fatal = b.fatal := by cases p <;> rfl
@[simp] theorem Arbiter.release_fatal (b : Arbiter) (p : Port) : (b.release p).fatal = b.fatal := by cases p <;> rfl
@[simp] theorem respond_arb_fatal (p : Port) (r : Rsp) (s : State) : (respond p r s).arb.fatal = s.arb.fatal := by cases p <;> rfl
@[simp] theorem Arbiter.setReq_cause (b : Arbiter) (p : Port) (l : Latch) : (b.setReq p l).cause = b.cause := by cases p <;> rfl
@[simp] theorem Arbiter.setReply_cause (b : Arbiter) (p : Port) (r : Option Rsp) : (b.setReply p r).cause = b.cause := by cases p <;> rfl
@[simp] theorem Arbiter.release_cause (b : Arbiter) (p : Port) : (b.release p).cause = b.cause := by cases p <;> rfl
@[simp] theorem respond_arb_cause (p : Port) (r : Rsp) (s : State) : (respond p r s).arb.cause = s.arb.cause := by cases p <;> rfl
@[simp] theorem Arbiter.setReq_port (b : Arbiter) (p : Port) (l : Latch) : (b.setReq p l).port = b.port := by cases p <;> rfl
@[simp] theorem Arbiter.setReply_port (b : Arbiter) (p : Port) (r : Option Rsp) : (b.setReply p r).port = b.port := by cases p <;> rfl
@[simp] theorem Arbiter.release_port (b : Arbiter) (p : Port) : (b.release p).port = b.port := by cases p <;> rfl
@[simp] theorem respond_arb_port (p : Port) (r : Rsp) (s : State) : (respond p r s).arb.port = s.arb.port := by cases p <;> rfl
@[simp] theorem Arbiter.setReq_nextStamp (b : Arbiter) (p : Port) (l : Latch) : (b.setReq p l).nextStamp = b.nextStamp := by cases p <;> rfl
@[simp] theorem Arbiter.setReply_nextStamp (b : Arbiter) (p : Port) (r : Option Rsp) : (b.setReply p r).nextStamp = b.nextStamp := by cases p <;> rfl
@[simp] theorem Arbiter.release_nextStamp (b : Arbiter) (p : Port) : (b.release p).nextStamp = b.nextStamp := by cases p <;> rfl
@[simp] theorem respond_arb_nextStamp (p : Port) (r : Rsp) (s : State) : (respond p r s).arb.nextStamp = s.arb.nextStamp := by cases p <;> rfl

theorem Arbiter.req_setReq (b : Arbiter) (p q : Port) (l : Latch) : (b.setReq p l).req q = if q = p then l else b.req q := by
  cases p <;> cases q <;> rfl

@[simp] theorem Arbiter.req_setReply (b : Arbiter) (p q : Port) (r : Option Rsp) : (b.setReply p r).req q = b.req q := by
  cases p <;> cases q <;> rfl

@[simp] theorem Arbiter.reply_setReq (b : Arbiter) (p q : Port) (l : Latch) : (b.setReq p l).reply q = b.reply q := by
  cases p <;> cases q <;> rfl

theorem Arbiter.reply_setReply (b : Arbiter) (p q : Port) (r : Option Rsp) :
    (b.setReply p r).reply q = if q = p then r else b.reply q := by cases p <;> cases q <;> rfl

theorem Arbiter.req_release (b : Arbiter) (p q : Port) :
    (b.release p).req q = if q = p then { b.req q with valid := false } else b.req q := by
  cases p <;> cases q <;> rfl

@[simp] theorem Arbiter.reply_release (b : Arbiter) (p q : Port) : (b.release p).reply q = b.reply q := by
  cases p <;> cases q <;> rfl

theorem respond_req (p q : Port) (r : Rsp) (s : State) :
    (respond p r s).arb.req q = if q = p then { s.arb.req q with valid := false } else s.arb.req q := by
  cases p <;> cases q <;> rfl

theorem respond_reply (p q : Port) (r : Rsp) (s : State) :
    (respond p r s).arb.reply q = if q = p then some r else s.arb.reply q := by
  cases p <;> cases q <;> rfl

@[simp] theorem takeHead_arb (p : Port) (q : List Port) (s : State) :
    (takeHead p q s).arb = { s.arb with queue := q, port := p } := rfl

@[simp] theorem enqueueRequest_arb (p : Port) (w : ReqWord) (s : State) :
    (enqueueRequest p w s).arb =
      { s.arb.setReq p (latchOf w s.arb.nextStamp) with queue := s.arb.queue ++ [p], nextStamp := s.arb.nextStamp + 1 } := by
  cases p <;> rfl

@[simp] theorem sever_arb (s : State) : (sever s).arb = { s.arb with alive := false } := rfl

@[simp] theorem beginStep_arb (s : State) : (beginStep s).arb = { s.arb with replyP := none, replyG := none } := rfl

@[simp] theorem newLine_sprites (s : State) :
    (newLine s).sprites = { s.sprites with consumed := Vector.replicate 40 false, vis := [] } := rfl

@[simp] theorem lineReset_pipe (s : State) : (lineReset s).pipe = lineResetPipe s.pipe := rfl

@[simp] theorem setPhase_pipe (b : Bool) (s : State) : (setPhase b s).pipe = { s.pipe with phase := b } := rfl

@[simp] theorem enqueueStage_pipe (s : State) : (enqueueStage s).pipe = enqueuePipe s.pipe := rfl

@[simp] theorem pushStage_pipe (s : State) : (pushStage s).pipe = pushPipe s.pipe := rfl

@[simp] theorem countOn_timer (s : State) : (countOn s).timer = { s.timer with counter := s.timer.counter + 1 } := rfl

@[simp] theorem enterMode_timer (m : Mode) (s : State) : (enterMode m s).timer = { s.timer with counter := 0, mode := m } := rfl

@[simp] theorem setLine_timer (n : BitVec 8) (s : State) : (setLine n s).timer = { s.timer with line := n } := rfl

@[simp] theorem tileResetAll_tile (s : State) : (tileResetAll s).tile = [] := rfl

@[simp] theorem setInBoot_inBoot (b : Bool) (s : State) : (setInBoot b s).inBoot = b := rfl

@[simp] theorem strobe_strobes (e : Strobe) (s : State) : (strobe e s).strobes = s.strobes ++ [e] := rfl

end Sys2Proof.Machine
end

