-- ==== Sys2Proof/Laws/AddressMap.lean ====
section
/-! SUPPORT. What the byte and word accesses of AddressMap and TileStore do, once each. -/

namespace Sys2Proof.Machine

/-! The region of an address, by range (R61). -/

theorem regionOf_boot (a : Addr) (h : a.toNat ≤ 0xFF) : regionOf true a = .boot := by
  unfold regionOf
  simp only
  rw [if_pos ⟨h, trivial⟩]

theorem regionOf_rom0 (b : Bool) (a : Addr) (h : a.toNat ≤ 0x3FFF) (hb : 0xFF < a.toNat ∨ b = false) :
    regionOf b a = .rom0 := by
  unfold regionOf
  simp only
  rw [if_neg, if_pos h]
  rintro ⟨h1, h2⟩
  rcases hb with hb | hb
  · omega
  · rw [hb] at h2
    cases h2

/-- Above the overlay the ladder is a chain of upper bounds. -/
theorem regionOf_above (b : Bool) (a : Addr) (h : 0x00FF < a.toNat) : regionOf b a = regionOf false a := by
  simp [regionOf, show ¬ a.toNat ≤ 0x00FF by omega]

theorem regionOf_rom1 (b : Bool) (a : Addr) (h1 : 0x4000 ≤ a.toNat) (h2 : a.toNat ≤ 0x7FFF) :
    regionOf b a = .rom1 := by
  rw [regionOf_above b a (by omega)]
  unfold regionOf
  grind

theorem regionOf_video (b : Bool) (a : Addr) (h1 : 0x8000 ≤ a.toNat) (h2 : a.toNat ≤ 0x9FFF) :
    regionOf b a = .video := by
  rw [regionOf_above b a (by omega)]
  unfold regionOf
  grind

theorem regionOf_externalRam (b : Bool) (a : Addr) (h1 : 0xA000 ≤ a.toNat) (h2 : a.toNat ≤ 0xBFFF) :
    regionOf b a = .externalRam := by
  rw [regionOf_above b a (by omega)]
  unfold regionOf
  grind

theorem regionOf_workRam (b : Bool) (a : Addr) (h1 : 0xC000 ≤ a.toNat) (h2 : a.toNat ≤ 0xDFFF) :
    regionOf b a = .workRam := by
  rw [regionOf_above b a (by omega)]
  unfold regionOf
  grind

theorem regionOf_workShadow (b : Bool) (a : Addr) (h1 : 0xE000 ≤ a.toNat) (h2 : a.toNat ≤ 0xFDFF) :
    regionOf b a = .workShadow := by
  rw [regionOf_above b a (by omega)]
  unfold regionOf
  grind

theorem regionOf_spriteMemory (b : Bool) (a : Addr) (h1 : 0xFE00 ≤ a.toNat) (h2 : a.toNat ≤ 0xFE9F) :
    regionOf b a = .spriteMemory := by
  rw [regionOf_above b a (by omega)]
  unfold regionOf
  grind

theorem regionOf_zeroSink (b : Bool) (a : Addr) (h1 : 0xFEA0 ≤ a.toNat) (h2 : a.toNat ≤ 0xFEFF) :
    regionOf b a = .zeroSink := by
  rw [regionOf_above b a (by omega)]
  unfold regionOf
  grind

theorem regionOf_ioSink (b : Bool) (a : Addr) (h1 : 0xFF00 ≤ a.toNat) (h2 : a.toNat ≤ 0xFF7F) :
    regionOf b a = .ioSink := by
  rw [regionOf_above b a (by omega)]
  unfold regionOf
  grind

theorem regionOf_zeroPage (b : Bool) (a : Addr) (h1 : 0xFF80 ≤ a.toNat) :
    regionOf b a = .zeroPage := by
  rw [regionOf_above b a (by omega)]
  unfold regionOf
  grind

/-- The cell an address selects exists (R61). -/
theorem cellOf_lt (b : Bool) (a : Addr) (c : Arr × Nat) (h : cellOf (regionOf b a) a = some c) : c.2 < arrSize c.1 := by
  have ha := a.isLt
  revert h
  unfold regionOf
  simp only
  repeat' split
  all_goals
    simp only [cellOf, Option.some.injEq, reduceCtorEq, false_implies]
    try (rintro rfl; simp only [arrSize]; omega)

/-- A write stores, if anywhere, to the cell its address selects. -/
theorem storeCell_some (s : State) (a : Addr) (c : Arr × Nat) (h : s.storeCell a = some c) :
    cellOf (s.region a) a = some c := by
  unfold State.storeCell at h
  revert h
  split
  · simp
  · simp
  · simp
  · rename_i hr
    rw [hr]
    split <;> simp
  · exact id

theorem storeCell_lt (s : State) (a : Addr) (c : Arr × Nat) (h : s.storeCell a = some c) : c.2 < arrSize c.1 :=
  cellOf_lt _ _ _ (storeCell_some s a c h)

/-- writeVideoByte's store (R191). -/
@[simp] theorem writeVideoByte_mem (k : Nat) (v : Byte) (s : State) : (writeVideoByte k v s).mem = s.mem.write .vram k v := by
  unfold writeVideoByte
  simp only
  split <;> rfl

/-- writeVideoByte's recompute (R191). -/
theorem writeVideoByte_tile (k : Nat) (v : Byte) (s : State) :
    (writeVideoByte k v s).tile =
      if k < tileBoundary then
        Sparse.set 0#16 s.tile (8 * (k / 16) + k % 16 / 2) (videoRow (s.mem.write .vram k v) k)
      else s.tile := by
  unfold writeVideoByte
  simp only
  split <;> rfl

@[simp] theorem storeByte_mem (c : Arr × Nat) (v : Byte) (s : State) : (storeByte c v s).mem = s.mem.write c.1 c.2 v := by
  unfold storeByte
  split
  · rename_i h
    rw [writeVideoByte_mem, h]
  · rfl

theorem storeByte_tile (c : Arr × Nat) (v : Byte) (s : State) :
    (storeByte c v s).tile = if c.1 = .vram then (writeVideoByte c.2 v s).tile else s.tile := by
  unfold storeByte
  split <;> rfl

/-- A byte write's effect on the storage: the computed cell, or nothing (R122). -/
theorem writeByte_mem (a : Addr) (v : Byte) (s : State) :
    (writeByte a v s).mem = match s.storeCell a with
      | some c => s.mem.write c.1 c.2 v
      | none => s.mem := by
  cases h : s.storeCell a <;> simp [writeByte, h]

/-- A byte read after a byte write, cell by cell (R122). -/
theorem writeByte_read (a : Addr) (v : Byte) (s : State) (b : Arr) (k : Nat) :
    (writeByte a v s).mem.read b k = if s.storeCell a = some (b, k) then v else s.mem.read b k := by
  rw [writeByte_mem]
  cases hc : s.storeCell a with
  | none => simp
  | some c =>
    obtain ⟨c1, c2⟩ := c
    simp only [Storage.read_write, Option.some.injEq, Prod.mk.injEq]
    grind

/-- Neither the region of an address nor the lock changes under a write. -/
@[simp] theorem writeByte_storeCell (a b : Addr) (v : Byte) (s : State) : (writeByte a v s).storeCell b = s.storeCell b := by
  unfold State.storeCell State.region State.oamLocked
  simp

@[simp] theorem writeByte_region (a b : Addr) (v : Byte) (s : State) : (writeByte a v s).region b = s.region b := by
  unfold State.region
  simp

@[simp] theorem writeByte_oamLocked (a : Addr) (v : Byte) (s : State) : (writeByte a v s).oamLocked = s.oamLocked := by
  unfold State.oamLocked
  simp

/-- A word write, cell by cell: the high byte's cell, then the low byte's (R124). -/
theorem writeWord_read (a : Addr) (w : Word) (s : State) (b : Arr) (k : Nat) :
    (writeWord a w s).mem.read b k =
      if s.storeCell (nextAddr a) = some (b, k) then highByte w
      else if s.storeCell a = some (b, k) then lowByte w
      else s.mem.read b k := by
  unfold writeWord
  rw [writeByte_read, writeByte_read, writeByte_storeCell]

/-- A byte write keeps the storage canonical. -/
theorem writeByte_mem_wf (a : Addr) (v : Byte) (s : State) (h : s.mem.wf = true) : (writeByte a v s).mem.wf = true := by
  rw [writeByte_mem]
  split
  · rename_i c hc
    exact Storage.wf_write _ _ _ _ (storeCell_lt s a c hc) h
  · exact h

theorem writeVideoByte_tile_wf (k : Nat) (v : Byte) (s : State) (h : TileRows.wf s.tile = true) :
    TileRows.wf (writeVideoByte k v s).tile = true := by
  rw [writeVideoByte_tile]
  split
  · rename_i hk
    refine Sparse.canon_set _ _ _ _ _ ?_ h
    simp only [tileBoundary, nTiles] at *
    omega
  · exact h

/-- A byte write keeps the tile rows canonical. -/
theorem writeByte_tile_wf (a : Addr) (v : Byte) (s : State) (h : TileRows.wf s.tile = true) :
    TileRows.wf (writeByte a v s).tile = true := by
  unfold writeByte
  split
  · rw [storeByte_tile]
    split
    · exact writeVideoByte_tile_wf _ _ _ h
    · exact h
  · exact h

theorem writeWord_mem_wf (a : Addr) (w : Word) (s : State) (h : s.mem.wf = true) : (writeWord a w s).mem.wf = true :=
  writeByte_mem_wf _ _ _ (writeByte_mem_wf _ _ _ h)

theorem writeWord_tile_wf (a : Addr) (w : Word) (s : State) (h : TileRows.wf s.tile = true) :
    TileRows.wf (writeWord a w s).tile = true := writeByte_tile_wf _ _ _ (writeByte_tile_wf _ _ _ h)

/-- The joined word's halves. -/
@[simp] theorem lowByte_joinBytes (hi lo : Byte) : lowByte (joinBytes hi lo) = lo := by
  refine BitVec.eq_of_getLsbD_eq fun i hi' => ?_
  unfold lowByte joinBytes
  rw [BitVec.getLsbD_setWidth]
  erw [BitVec.getLsbD_append]
  simp [hi']

@[simp] theorem highByte_joinBytes (hi lo : Byte) : highByte (joinBytes hi lo) = hi := by
  refine BitVec.eq_of_getLsbD_eq fun i hi' => ?_
  unfold highByte joinBytes
  rw [BitVec.getLsbD_extractLsb']
  erw [BitVec.getLsbD_append]
  simp [hi']

/-- A word is its two halves joined. -/
theorem joinBytes_halves (w : Word) : joinBytes (highByte w) (lowByte w) = w := by
  refine BitVec.eq_of_getLsbD_eq fun i hi => ?_
  unfold lowByte highByte joinBytes
  erw [BitVec.getLsbD_append]
  rw [BitVec.getLsbD_extractLsb', BitVec.getLsbD_setWidth]
  by_cases h : i < 8
  · simp [h]
  · have e : 8 + (i - 8) = i := by omega
    have h2 : i - 8 < 8 := by omega
    simp [h, h2, e]

end Sys2Proof.Machine
end

