-- ==== Sys2Proof/Laws/Arbiter.lean ====
section
/-! SUPPORT. What an operation, a service and a transaction do, once each; later proofs cite these and unfold nothing. -/

namespace Sys2Proof.Machine

/-- The change an operation makes to the storage and the tile cache (R146 to R149). -/
def effectOf : Instr → State → State
  | .rb _, s => s
  | .rw _, s => s
  | .wb a v, s => writeByte a v s
  | .ww a w, s => writeWord a w s

/-- The response an operation gives when it runs (R146 to R150). -/
def rspOf : Instr → State → Rsp
  | .rb a, s => answerOf s.cfg .okData (readByte s s.arb.port a).2 ((readByte s s.arb.port a).1.setWidth 16)
  | .rw a, s => answerOf s.cfg .okData (readWord s s.arb.port a).2 (readWord s s.arb.port a).1
  | .wb a _, s => answerOf s.cfg .okNoData (s.writeUnsup a) 0
  | .ww a _, s => answerOf s.cfg .okNoData (s.writeWordUnsup a) 0

/-- The malformed check of the meanings is the one of WellFormed.lean (R145). -/
theorem wellFormed_iff (i : Instr) :
    i.wellFormed = match i with
      | .rb _ => true
      | .rw a => !wordAddrBad a
      | .wb _ _ => true
      | .ww a _ => !wordAddrBad a := by
  cases i <;> simp [Instr.wellFormed, wordAddrBad] <;> rfl

/-- An operation that runs (R144, R152). -/
theorem exec_runs (i : Instr) (s : State) (hf : s.arb.fatal = false) (ha : s.arb.alive = true)
    (hw : i.wellFormed = true) : exec i s = .next (respond s.arb.port (rspOf i s) (effectOf i s)) := by
  rw [wellFormed_iff] at hw
  cases i <;>
    simp_all [exec, execRb, execRw, execWb, execWw, serve, answer, rspOf, effectOf]

/-- A malformed request (R145). -/
theorem exec_malformed (i : Instr) (s : State) (hf : s.arb.fatal = false) (ha : s.arb.alive = true)
    (hw : i.wellFormed = false) : exec i s = .next (failMalformed s.arb.port s) := by
  rw [wellFormed_iff] at hw
  cases i <;> simp_all [exec, execRw, execWw, serve]

/-- A request on a severed channel (R156). -/
theorem exec_severed (i : Instr) (s : State) (hf : s.arb.fatal = false) (ha : s.arb.alive = false) :
    exec i s = .next (failSevered s.arb.port s) := by
  cases i <;> simp [exec, execRb, execRw, execWb, execWw, serve, hf, ha]

/-- After a fatal fault nothing is served (R155). -/
theorem exec_fatal (i : Instr) (s : State) (hf : s.arb.fatal = true) : exec i s = .fault .fatalLatched := by
  cases i <;> simp [exec, execRb, execRw, execWb, execWw, serve, hf]

/-- Everything an operation can do when it answers a next state. -/
theorem exec_next (i : Instr) (s t : State) (h : exec i s = .next t) :
    s.arb.fatal = false ∧
      ((s.arb.alive = true ∧ i.wellFormed = true ∧ t = respond s.arb.port (rspOf i s) (effectOf i s)) ∨
        (s.arb.alive = true ∧ i.wellFormed = false ∧ t = failMalformed s.arb.port s) ∨
          (s.arb.alive = false ∧ t = failSevered s.arb.port s)) := by
  cases hf : s.arb.fatal with
  | true => rw [exec_fatal i s hf] at h; cases h
  | false =>
    refine ⟨rfl, ?_⟩
    cases ha : s.arb.alive with
    | false => rw [exec_severed i s hf ha] at h; cases h; simp
    | true =>
      cases hw : i.wellFormed with
      | true => rw [exec_runs i s hf ha hw] at h; cases h; simp
      | false => rw [exec_malformed i s hf ha hw] at h; cases h; simp

section effect

variable (i : Instr) (s : State)

@[simp] theorem effectOf_cfg : (effectOf i s).cfg = s.cfg := by cases i <;> simp [effectOf]
@[simp] theorem effectOf_inBoot : (effectOf i s).inBoot = s.inBoot := by cases i <;> simp [effectOf]
@[simp] theorem effectOf_arb : (effectOf i s).arb = s.arb := by cases i <;> simp [effectOf]
@[simp] theorem effectOf_timer : (effectOf i s).timer = s.timer := by cases i <;> simp [effectOf]
@[simp] theorem effectOf_sprites : (effectOf i s).sprites = s.sprites := by cases i <;> simp [effectOf]
@[simp] theorem effectOf_pipe : (effectOf i s).pipe = s.pipe := by cases i <;> simp [effectOf]
@[simp] theorem effectOf_fb : (effectOf i s).fb = s.fb := by cases i <;> simp [effectOf]
@[simp] theorem effectOf_strobes : (effectOf i s).strobes = s.strobes := by cases i <;> simp [effectOf]
@[simp] theorem effectOf_moves : (effectOf i s).moves = s.moves := by cases i <;> simp [effectOf]
@[simp] theorem effectOf_draws : (effectOf i s).draws = s.draws := by cases i <;> simp [effectOf]

theorem effectOf_mem_wf (h : s.mem.wf = true) : (effectOf i s).mem.wf = true := by
  cases i <;> simp only [effectOf]
  · exact h
  · exact h
  · exact writeByte_mem_wf _ _ _ h
  · exact writeWord_mem_wf _ _ _ h

theorem effectOf_tile_wf (h : TileRows.wf s.tile = true) : TileRows.wf (effectOf i s).tile = true := by
  cases i <;> simp only [effectOf]
  · exact h
  · exact h
  · exact writeByte_tile_wf _ _ _ h
  · exact writeWord_tile_wf _ _ _ h

end effect

/-- What every operation leaves unchanged, whichever way it ends (R71, R158, R177). -/
theorem exec_frame (i : Instr) (s t : State) (h : exec i s = .next t) :
    t.cfg = s.cfg ∧ t.inBoot = s.inBoot ∧ t.timer = s.timer ∧ t.sprites = s.sprites ∧ t.pipe = s.pipe ∧ t.fb = s.fb ∧
      t.strobes = s.strobes ∧ t.moves = s.moves ∧ t.draws = s.draws ∧ t.arb.queue = s.arb.queue ∧
        t.arb.port = s.arb.port ∧ t.arb.nextStamp = s.arb.nextStamp ∧ t.arb.alive = s.arb.alive := by
  obtain ⟨-, ⟨-, -, rfl⟩ | ⟨-, -, rfl⟩ | ⟨-, rfl⟩⟩ := exec_next i s t h <;> simp [failMalformed, failSevered]

/-- An operation with which the block goes on is one that ran. -/
theorem exec_next_running (i : Instr) (s t : State) (h : exec i s = .next t) (hf : t.arb.fatal = false) :
    s.arb.fatal = false ∧ s.arb.alive = true ∧ i.wellFormed = true ∧
      t = respond s.arb.port (rspOf i s) (effectOf i s) := by
  obtain ⟨h0, ⟨h1, h2, h3⟩ | ⟨-, -, rfl⟩ | ⟨-, rfl⟩⟩ := exec_next i s t h
  · exact ⟨h0, h1, h2, h3⟩
  · simp [failMalformed] at hf
  · simp [failSevered] at hf

/-- Sequencing inside a step: either the first part ended the step with the latch set, or it went on. -/
theorem thenRun_next {o : Result} {k : State → Result} {t : State} (h : thenRun o k = .next t) :
    (o = .next t ∧ t.arb.fatal = true) ∨ ∃ s, o = .next s ∧ s.arb.fatal = false ∧ k s = .next t := by
  unfold thenRun at h
  split at h
  · rename_i s
    split at h
    · rename_i hf
      cases h
      exact .inl ⟨rfl, hf⟩
    · rename_i hf
      exact .inr ⟨s, rfl, by simpa using hf, h⟩
  · cases h
  · cases h

@[simp] theorem thenRun_of_running {s : State} {k : State → Result} (h : s.arb.fatal = false) :
    thenRun (.next s) k = k s := by simp [thenRun, h]

@[simp] theorem thenRun_of_fatal {s : State} {k : State → Result} (h : s.arb.fatal = true) :
    thenRun (.next s) k = .next s := by simp [thenRun, h]

/-- Submit when it is enabled (R141). -/
theorem submit_runs (p : Port) (w : ReqWord) (s : State) (hf : s.arb.fatal = false) (hv : (s.arb.req p).valid = false) :
    submit p w s = .next (enqueueRequest p w s) := by simp [submit, hf, hv]

theorem submit_next {p : Port} {w : ReqWord} {s t : State} (h : submit p w s = .next t) :
    s.arb.fatal = false ∧ (s.arb.req p).valid = false ∧ t = enqueueRequest p w s := by
  unfold submit at h
  split at h
  · cases h
  · split at h
    · cases h
    · cases h
      exact ⟨by simp_all, by simp_all, rfl⟩

/-- A service executes the request at the head of the queue (R144). -/
theorem service_runs (s : State) (p : Port) (rest : List Port) (hf : s.arb.fatal = false) (hq : s.arb.queue = p :: rest) :
    service s = exec (decode (s.arb.req p).word) (takeHead p rest s) := by simp [service, hf, hq]

theorem service_next {s t : State} (h : service s = .next t) :
    s.arb.fatal = false ∧ ∃ p rest, s.arb.queue = p :: rest ∧
      exec (decode (s.arb.req p).word) (takeHead p rest s) = .next t := by
  unfold service at h
  split at h
  · cases h
  · split at h
    · cases h
    · exact ⟨by simp_all, _, _, ‹_›, h⟩

/-- Whatever a submit and a service keep, services in a row keep. -/
theorem serviceUntil_keeps (P : State → Prop) (hs : ∀ s t, P s → service s = .next t → P t) (p : Port) (q : List Port)
    (s t : State) (h : serviceUntil p q s = .next t) (hP : P s) : P t := by
  induction q generalizing s with
  | nil => cases h
  | cons x rest ih =>
    unfold serviceUntil at h
    split at h
    · exact hs s t hP h
    · obtain ⟨h1, -⟩ | ⟨s1, h1, -, h2⟩ := thenRun_next h
      · exact hs s t hP h1
      · exact ih s1 h2 (hs s s1 hP h1)

/-- Whatever a submit and a service keep, a whole transaction keeps. -/
theorem transact_keeps (P : State → Prop)
    (he : ∀ p w s, s.arb.fatal = false → (s.arb.req p).valid = false → P s → P (enqueueRequest p w s))
    (hs : ∀ s t, P s → service s = .next t → P t) (p : Port) (w : ReqWord) (s t : State)
    (h : transact p w s = .next t) (hP : P s) : P t := by
  unfold transact at h
  obtain ⟨h1, -⟩ | ⟨s1, h1, -, h2⟩ := thenRun_next h
  · obtain ⟨a, b, rfl⟩ := submit_next h1
    exact he p w s a b hP
  · obtain ⟨a, b, rfl⟩ := submit_next h1
    exact serviceUntil_keeps P hs p _ _ t h2 (he p w s a b hP)

/-- A latch holds the word it was filled from (R91, R141). -/
@[simp] theorem latchOf_word (w : ReqWord) (n : Nat) : (latchOf w n).word = w := by
  refine BitVec.eq_of_getLsbD_eq fun i hi => ?_
  unfold latchOf Latch.word reqWord reqOp reqAddr reqData
  simp only
  erw [BitVec.getLsbD_append, BitVec.getLsbD_append]
  simp only [BitVec.getLsbD_extractLsb']
  by_cases h1 : i < 16
  · simp [h1]
  · by_cases h2 : i - 16 < 16
    · have e : 16 + (i - 16) = i := by omega
      simp [h1, h2, e]
    · have e : 32 + (i - 16 - 16) = i := by omega
      have h3 : i - 16 - 16 < 2 := by omega
      simp [h1, h2, h3, e]

/-- The encoder's word decodes to the instruction's fields (R91). -/
theorem reqWord_fields (op : BitVec 2) (a d : Word) :
    reqOp (reqWord op a d) = op ∧ reqAddr (reqWord op a d) = a ∧ reqData (reqWord op a d) = d := by
  refine ⟨?_, ?_, ?_⟩ <;> refine BitVec.eq_of_getLsbD_eq fun i hi => ?_
  · unfold reqOp reqWord
    rw [BitVec.getLsbD_extractLsb']
    erw [BitVec.getLsbD_append, BitVec.getLsbD_append]
    have h1 : ¬ 32 + i < 16 := by omega
    have h2 : ¬ 32 + i - 16 < 16 := by omega
    have e : 32 + i - 16 - 16 = i := by omega
    simp [hi, h1, h2, e]
  · unfold reqAddr reqWord
    rw [BitVec.getLsbD_extractLsb']
    erw [BitVec.getLsbD_append, BitVec.getLsbD_append]
    have h1 : ¬ 16 + i < 16 := by omega
    have h2 : 16 + i - 16 < 16 := by omega
    simp [hi]
  · unfold reqData reqWord
    rw [BitVec.getLsbD_extractLsb']
    erw [BitVec.getLsbD_append, BitVec.getLsbD_append]
    simp [hi]

/-- The fused transaction (R152): with nothing pending and the port free, a transaction is the submit followed by the
execution of that request. -/
theorem transact_alone (p : Port) (w : ReqWord) (s : State) (hf : s.arb.fatal = false) (hq : s.arb.queue = [])
    (hv : (s.arb.req p).valid = false) :
    transact p w s = exec (decode w) (takeHead p [] (enqueueRequest p w s)) := by
  have hf' : (enqueueRequest p w s).arb.fatal = false := by simp [hf]
  have hq' : (enqueueRequest p w s).arb.queue = [p] := by simp [hq]
  have hw : ((enqueueRequest p w s).arb.req p).word = w := by
    cases p <;> simp [Arbiter.req, Arbiter.setReq]
  simp only [transact, submit_runs p w s hf hv, thenRun_of_running hf', hq', serviceUntil, if_true,
    service_runs _ p [] hf' hq', hw]

end Sys2Proof.Machine
end

