-- ==== Sys2Proof/Laws/Graphics.lean ====
section
/-! SUPPORT. What the graphics actor's bus reads and the stages of a dot do, once each. -/

namespace Sys2Proof.Machine

/-- The components no bus transaction touches (R71, R158, R177). -/
structure SameOutside (s t : State) : Prop where
  cfg : t.cfg = s.cfg
  inBoot : t.inBoot = s.inBoot
  timer : t.timer = s.timer
  sprites : t.sprites = s.sprites
  pipe : t.pipe = s.pipe
  fb : t.fb = s.fb
  strobes : t.strobes = s.strobes
  moves : t.moves = s.moves
  draws : t.draws = s.draws

theorem SameOutside.rfl' (s : State) : SameOutside s s := by constructor <;> rfl

theorem SameOutside.trans' {s t u : State} (h : SameOutside s t) (k : SameOutside t u) : SameOutside s u :=
  ⟨k.cfg.trans h.cfg, k.inBoot.trans h.inBoot, k.timer.trans h.timer, k.sprites.trans h.sprites, k.pipe.trans h.pipe,
    k.fb.trans h.fb, k.strobes.trans h.strobes, k.moves.trans h.moves, k.draws.trans h.draws⟩

theorem service_frame {s t : State} (h : service s = .next t) : SameOutside s t := by
  obtain ⟨-, p, rest, -, he⟩ := service_next h
  obtain ⟨a, b, c, d, e, f, g, i, j, -⟩ := exec_frame _ _ _ he
  exact ⟨a, b, c, d, e, f, g, i, j⟩

/-- A bus transaction touches the storage, the tile cache and the arbiter only. -/
theorem transact_frame {p : Port} {w : ReqWord} {s t : State} (h : transact p w s = .next t) : SameOutside s t :=
  transact_keeps (SameOutside s) (fun _ _ _ _ _ hP => hP.trans' (by constructor <;> rfl))
    (fun _ _ hP hs => hP.trans' (service_frame hs)) p w s t h (SameOutside.rfl' s)

/-- The response a port-G read gets when nothing else is pending (R152): what the read gives as port G. -/
def readRspG (i : Instr) (s : State) : Rsp := rspOf i { s with arb := { s.arb with port := .portG } }

/-- A port-G read on a running block with nothing pending (R142, R152): it is answered at once and changes the arbiter
only. -/
theorem busReadG_runs (a : Addr) (s : State) (hf : s.arb.fatal = false) (ha : s.arb.alive = true)
    (hq : s.arb.queue = []) (hv : s.arb.reqG.valid = false) (i : Instr) (hi : i = .rb a ∨ (i = .rw a ∧ i.wellFormed = true))
    (hd : decode (encode i) = i) :
    ∃ b, busReadG i s = .next { s with arb := b } ∧ b.fatal = false ∧ b.alive = true ∧ b.queue = [] ∧
      b.reqG.valid = false ∧ b.reqP = s.arb.reqP ∧ b.cause = s.arb.cause ∧ b.replyG = some (readRspG i s) := by
  have hw : i.wellFormed = true := by
    rcases hi with rfl | ⟨-, h⟩
    · rfl
    · exact h
  unfold busReadG
  rw [transact_alone .portG (encode i) s hf hq hv, hd, exec_runs i _ (by simpa using hf) (by simpa using ha) hw]
  have he : effectOf i (takeHead .portG [] (enqueueRequest .portG (encode i) s)) =
      takeHead .portG [] (enqueueRequest .portG (encode i) s) := by
    rcases hi with rfl | ⟨rfl, -⟩ <;> rfl
  have hr : rspOf i (takeHead .portG [] (enqueueRequest .portG (encode i) s)) = readRspG i s := by
    rcases hi with rfl | ⟨rfl, -⟩ <;> rfl
  rw [he, hr]
  refine ⟨(respond .portG (readRspG i s) (takeHead .portG [] (enqueueRequest .portG (encode i) s))).arb, rfl, ?_⟩
  refine ⟨by simpa using hf, by simpa using ha, by simp, rfl, rfl, by simp, rfl⟩

/-- What the fetch stage leaves unchanged: all but the storage, the cache, the arbiter and the fetcher's own registers. -/
structure SameButFetch (s t : State) : Prop where
  cfg : t.cfg = s.cfg
  inBoot : t.inBoot = s.inBoot
  timer : t.timer = s.timer
  sprites : t.sprites = s.sprites
  fb : t.fb = s.fb
  strobes : t.strobes = s.strobes
  moves : t.moves = s.moves
  draws : t.draws = s.draws
  fifo : t.pipe.fifo = s.pipe.fifo
  count : t.pipe.count = s.pipe.count
  outCol : t.pipe.outCol = s.pipe.outCol
  fetchX : t.pipe.fetchX = s.pipe.fetchX
  linebuf : t.pipe.linebuf = s.pipe.linebuf

theorem SameOutside.toFetch {s t : State} (h : SameOutside s t) : SameButFetch s t :=
  ⟨h.cfg, h.inBoot, h.timer, h.sprites, h.fb, h.strobes, h.moves, h.draws, by rw [h.pipe], by rw [h.pipe], by rw [h.pipe],
    by rw [h.pipe], by rw [h.pipe]⟩

theorem SameButFetch.trans' {s t u : State} (h : SameButFetch s t) (k : SameButFetch t u) : SameButFetch s u :=
  ⟨k.cfg.trans h.cfg, k.inBoot.trans h.inBoot, k.timer.trans h.timer, k.sprites.trans h.sprites, k.fb.trans h.fb,
    k.strobes.trans h.strobes, k.moves.trans h.moves, k.draws.trans h.draws, k.fifo.trans h.fifo, k.count.trans h.count,
    k.outCol.trans h.outCol, k.fetchX.trans h.fetchX, k.linebuf.trans h.linebuf⟩

/-- A read followed by a change of the fetcher's registers. -/
theorem readThen_frame {i : Instr} {s t : State} {f : State → State} (hf : ∀ x, SameButFetch x (f x))
    (h : thenRun (busReadG i s) (fun s1 => .next (f s1)) = .next t) : SameButFetch s t := by
  obtain ⟨h1, -⟩ | ⟨s1, h1, -, h2⟩ := thenRun_next h
  · exact (transact_frame h1).toFetch
  · cases h2
    exact (transact_frame h1).toFetch.trans' (hf s1)

/-- What the fetch stage leaves unchanged (R233 to R236). -/
theorem fetchStage_frame {s t : State} (h : fetchStage s = .next t) : SameButFetch s t := by
  have hp : ∀ b x, SameButFetch x (setPhase b x) := fun b x =>
    by constructor <;> rfl
  unfold fetchStage at h
  split at h
  · cases h
    exact (SameOutside.rfl' s).toFetch
  · split at h
    · exact (hp false s).trans' (readThen_frame (f := fun s1 => gotTileNo (lowByte (replyDataG s1)) s1)
        (fun _ => by constructor <;> rfl) h)
    · cases h
      exact hp true s
  · split at h
    · exact (hp false s).trans' (readThen_frame (f := fun s1 => gotByte0 (lowByte (replyDataG s1)) s1)
        (fun _ => by constructor <;> rfl) h)
    · cases h
      exact hp true s
  · split at h
    · exact (hp false s).trans' (readThen_frame (f := fun s1 => gotByte1 (lowByte (replyDataG s1)) s1)
        (fun _ => by constructor <;> rfl) h)
    · cases h
      exact hp true s

/-- One overlaid position (R240): a slot changed, or the latch set, or nothing. -/
theorem overlayAt_next {n : Fin 40} {i : Fin 16} {s t : State} (h : overlayAt n i s = .next t) :
    (s.pipe.fifo[i].valid = false ∧ t = raiseFatal .overlayEmptySlot s) ∨
      (s.pipe.fifo[i].valid = true ∧ ∃ c, spritePixel s n i = some c ∧ t = putOverlay n i c s) := by
  unfold overlayAt at h
  split at h
  · rename_i hv
    split at h
    · rename_i c hc
      cases h
      exact .inr ⟨hv, c, hc, rfl⟩
    · cases h
  · rename_i hv
    cases h
    exact .inl ⟨by simpa using hv, rfl⟩

@[simp] theorem overlaySlot_valid (x : Slot) (r : SpriteRec) (c : BitVec 2) : (overlaySlot x r c).valid = x.valid := by
  unfold overlaySlot
  split <;> rfl

/-- What an overlay leaves unchanged: all but the slots' contents and the fatal latch (R240). -/
structure SameButSlots (s t : State) : Prop where
  cfg : t.cfg = s.cfg
  mem : t.mem = s.mem
  inBoot : t.inBoot = s.inBoot
  timer : t.timer = s.timer
  tile : t.tile = s.tile
  sprites : t.sprites = s.sprites
  fb : t.fb = s.fb
  strobes : t.strobes = s.strobes
  moves : t.moves = s.moves
  draws : t.draws = s.draws
  pipe : { t.pipe with fifo := s.pipe.fifo } = s.pipe
  valid : ∀ k : Fin 16, t.pipe.fifo[k].valid = s.pipe.fifo[k].valid
  arb : t.arb = s.arb ∨ t.arb = { s.arb with fatal := true, cause := .overlayEmptySlot }

theorem overlayAt_frame {n : Fin 40} {i : Fin 16} {s t : State} (h : overlayAt n i s = .next t) : SameButSlots s t := by
  obtain ⟨-, rfl⟩ | ⟨-, c, -, rfl⟩ := overlayAt_next h
  · constructor
    case arb => exact .inr rfl
    all_goals first | rfl | exact fun _ => rfl
  · constructor
    case arb => exact .inl rfl
    case valid =>
      intro k
      simp only [putOverlay, Fin.getElem_fin, Vector.getElem_set]
      split
      · rename_i hk
        simp [hk]
      · rfl
    all_goals rfl

theorem overlayFrom_frame {n : Fin 40} (is : List (Fin 16)) {s t : State} (h : overlayFrom n is s = .next t) :
    SameButSlots s t := by
  induction is generalizing s with
  | nil =>
    cases h
    constructor
    case arb => exact .inl rfl
    all_goals first | rfl | exact fun _ => rfl
  | cons i is ih =>
    unfold overlayFrom at h
    obtain ⟨h1, -⟩ | ⟨s1, h1, hf, h2⟩ := thenRun_next h
    · exact overlayAt_frame h1
    · have a := overlayAt_frame h1
      have b := ih h2
      have ha : s1.arb = s.arb := by
        rcases a.arb with e | e
        · exact e
        · rw [e] at hf
          cases hf
      refine ⟨b.cfg.trans a.cfg, b.mem.trans a.mem, b.inBoot.trans a.inBoot, b.timer.trans a.timer, b.tile.trans a.tile,
        b.sprites.trans a.sprites, b.fb.trans a.fb, b.strobes.trans a.strobes, b.moves.trans a.moves,
        b.draws.trans a.draws, ?_, fun k => (b.valid k).trans (a.valid k), ?_⟩
      · have ap := a.pipe
        have bp := b.pipe
        rw [← ap, ← bp]
      · rw [← ha]
        exact b.arb

/-- Every position is overlaid when every one is valid and the sprite is visible on the line. -/
theorem overlayFrom_runs (n : Fin 40) (is : List (Fin 16)) (s : State) (hf : s.arb.fatal = false)
    (hv : ∀ i ∈ is, s.pipe.fifo[i].valid = true)
    (hr : (spriteRow s.sprites.recs[n] s.timer.line.toNat).isSome = true) :
    ∃ t, overlayFrom n is s = .next t ∧ t.arb = s.arb := by
  induction is generalizing s with
  | nil => exact ⟨s, rfl, rfl⟩
  | cons i is ih =>
    obtain ⟨r, hr'⟩ := Option.isSome_iff_exists.mp hr
    obtain ⟨c, hc⟩ : ∃ c, spritePixel s n i = some c := by
      unfold spritePixel
      rw [hr']
      exact ⟨_, rfl⟩
    have h1 : overlayAt n i s = .next (putOverlay n i c s) := by
      unfold overlayAt
      rw [if_pos (hv i (by simp)), hc]
    have fr := overlayAt_frame h1
    obtain ⟨t, ht, ha⟩ := ih (putOverlay n i c s) hf (fun j hj => by rw [fr.valid j]; exact hv j (by simp [hj])) hr
    refine ⟨t, ?_, ha⟩
    unfold overlayFrom
    rw [h1, thenRun_of_running (by exact hf)]
    exact ht

/-- A visible sprite has a tile row on the line (R211, R241). -/
theorem spriteRow_isSome (r : SpriteRec) (line : Nat) (h : spriteVisible r line = true) :
    (spriteRow r line).isSome = true := by
  simp only [spriteVisible, Bool.and_eq_true, decide_eq_true_eq, spriteH] at h
  unfold spriteRow
  rw [if_pos h.1]
  simp only
  rw [dif_pos (by omega)]
  rfl

/-- The visible list's members (R214). -/
theorem scanline_visible (t : SpriteTable) (line : Nat) (n : Fin 40) (h : n ∈ scanline t line) :
    spriteVisible t.recs[n] line = true ∧ t.consumed[n] = false := by
  have h' := List.mem_of_mem_take h
  have := (List.mem_filter.mp h').2
  simpa using this

/-- The visible list is in table order, at most ten entries (R214, R34 f). -/
theorem scanline_ok (t : SpriteTable) (line : Nat) :
    (scanline t line).Pairwise (· < ·) ∧ (scanline t line).length ≤ spritesPerLine := by
  refine ⟨?_, List.length_take_le _ _⟩
  refine List.Pairwise.sublist (List.take_sublist _ _) (List.Pairwise.filter _ ?_)
  exact List.pairwise_lt_finRange 40

/-- The FIFO after the enqueue of a row, slot by slot (R237). -/
theorem fifoAppend_get (f : Vector Slot 16) (a : Nat) (row : Word) (k : Fin 16) :
    (fifoAppend f a row)[k] = if a ≤ k.val ∧ k.val < a + 8 then bgSlot row (k.val - a) else f[k] := by
  unfold fifoAppend
  simp only [Fin.getElem_fin, Vector.getElem_setIfInBounds]
  repeat' split
  all_goals first | rfl | (congr 1; omega)

/-- The FIFO after the push, slot by slot (R243). -/
theorem fifoShift_get (f : Vector Slot 16) (k : Fin 16) :
    (fifoShift f)[k] = if h : k.val + 1 < 16 then f[k.val + 1] else f[15].invalid := by
  obtain ⟨k, hk⟩ := k
  interval_cases k <;> rfl

/-- Everything the overlay stage can do when it answers a next state (R239). -/
theorem overlayStage_next {s t : State} (h : overlayStage s = .next t) :
    (s.sprites.vis.find? (overlayMatches s) = none ∧ t = s) ∨
      ∃ n u, s.sprites.vis.find? (overlayMatches s) = some n ∧ overlay n s = .next u ∧
        ((u.arb.fatal = true ∧ t = u) ∨ (u.arb.fatal = false ∧ t = consume n u)) := by
  unfold overlayStage at h
  split at h
  · rename_i n hn
    obtain ⟨h1, hf⟩ | ⟨u, h1, hf, h2⟩ := thenRun_next h
    · exact .inr ⟨n, t, hn, h1, .inl ⟨hf, rfl⟩⟩
    · cases h2
      exact .inr ⟨n, u, hn, h1, .inr ⟨hf, rfl⟩⟩
  · rename_i hn
    cases h
    exact .inl ⟨hn, rfl⟩

/-- What a dot leaves unchanged: all but the storage, the cache, the arbiter, the pipeline and the marks (R230). -/
structure SameButDot (s t : State) : Prop where
  cfg : t.cfg = s.cfg
  inBoot : t.inBoot = s.inBoot
  timer : t.timer = s.timer
  vis : t.sprites.vis = s.sprites.vis
  recs : t.sprites.recs = s.sprites.recs
  fb : t.fb = s.fb
  strobes : t.strobes = s.strobes
  moves : t.moves = s.moves
  draws : t.draws = s.draws

theorem SameButDot.rfl' (s : State) : SameButDot s s := by constructor <;> rfl

theorem SameButDot.trans' {s t u : State} (h : SameButDot s t) (k : SameButDot t u) : SameButDot s u :=
  ⟨k.cfg.trans h.cfg, k.inBoot.trans h.inBoot, k.timer.trans h.timer, k.vis.trans h.vis, k.recs.trans h.recs,
    k.fb.trans h.fb, k.strobes.trans h.strobes, k.moves.trans h.moves, k.draws.trans h.draws⟩

theorem SameButFetch.toDot {s t : State} (h : SameButFetch s t) : SameButDot s t :=
  ⟨h.cfg, h.inBoot, h.timer, by rw [h.sprites], by rw [h.sprites], h.fb, h.strobes, h.moves, h.draws⟩

theorem SameButSlots.toDot {s t : State} (h : SameButSlots s t) : SameButDot s t :=
  ⟨h.cfg, h.inBoot, h.timer, by rw [h.sprites], by rw [h.sprites], h.fb, h.strobes, h.moves, h.draws⟩

theorem overlayStage_frame {s t : State} (h : overlayStage s = .next t) : SameButDot s t := by
  obtain ⟨-, rfl⟩ | ⟨n, u, -, h1, ⟨-, rfl⟩ | ⟨-, rfl⟩⟩ := overlayStage_next h
  · exact SameButDot.rfl' _
  · exact (overlayFrom_frame _ h1).toDot
  · exact (overlayFrom_frame _ h1).toDot.trans' (by constructor <;> rfl)

/-- What the gate and the stages behind it leave unchanged (R238). -/
theorem emitStage_frame {s t : State} (h : emitStage s = .next t) : SameButDot s t := by
  unfold emitStage at h
  split at h
  · obtain ⟨h1, -⟩ | ⟨u, h1, -, h2⟩ := thenRun_next h
    · exact overlayStage_frame h1
    · cases h2
      exact (overlayStage_frame h1).trans' (by constructor <;> rfl)
  · cases h
    exact SameButDot.rfl' _

theorem dot_frame {s t : State} (h : dot s = .next t) : SameButDot s t := by
  unfold dot at h
  split at h
  · cases h
    exact SameButDot.rfl' _
  · obtain ⟨h1, -⟩ | ⟨u, h1, -, h2⟩ := thenRun_next h
    · exact (fetchStage_frame h1).toDot
    · have he : SameButDot u (enqueueStage u) := by constructor <;> rfl
      exact (fetchStage_frame h1).toDot.trans' (he.trans' (emitStage_frame h2))

/-- No port's request is outstanding exactly when neither latch is valid and the queue is empty. -/
theorem pendingPort?_none (s : State) : s.pendingPort? = none ↔ s.NothingPending := by
  unfold State.pendingPort? State.NothingPending
  cases hP : s.arb.reqP.valid <;> cases hG : s.arb.reqG.valid <;> simp

/-- A tick with nothing outstanding and the line in range is the tick of its mode (R170). -/
theorem tick_runs (s : State) (hf : s.arb.fatal = false) (hp : s.NothingPending) (hl : s.timer.line.toNat ≤ lastLine) :
    tick s = modeTick s := by
  simp [tick, hf, (pendingPort?_none s).mpr hp, show ¬ lastLine < s.timer.line.toNat by omega]

/-- Everything a tick can do when it answers a next state (R170, R171). -/
theorem tick_next {s t : State} (h : tick s = .next t) :
    s.arb.fatal = false ∧ s.NothingPending ∧
      ((lastLine < s.timer.line.toNat ∧ t = raiseFatal .timingLine s) ∨
        (s.timer.line.toNat ≤ lastLine ∧
          ((s.timer.mode = .oamScan ∧ oamScanTick s = .next t) ∨
            (s.timer.mode = .pixelTransfer ∧ pixelTransferTick s = .next t) ∨
            (s.timer.mode = .hBlank ∧ t = hBlankTick s) ∨ (s.timer.mode = .vBlank ∧ t = vBlankTick s)))) := by
  unfold tick at h
  split at h
  · cases h
  · split at h
    · cases h
    · refine ⟨by simp_all, (pendingPort?_none s).mp ‹_›, ?_⟩
      split at h
      · rename_i hl
        cases h
        exact .inl ⟨hl, rfl⟩
      · rename_i hl
        refine .inr ⟨by omega, ?_⟩
        unfold modeTick at h
        split at h
        · exact .inl ⟨‹_›, h⟩
        · exact .inr (.inl ⟨‹_›, h⟩)
        · cases h
          exact .inr (.inr (.inl ⟨‹_›, rfl⟩))
        · cases h
          exact .inr (.inr (.inr ⟨‹_›, rfl⟩))

end Sys2Proof.Machine
end

