-- ==== Sys2Proof/Laws/PerInstr.lean ====
section
/-! SUPPORT. Statements made per instruction. `EncodeFields`: the REQ word of an instruction carries its operation code, its
address and its payload in the fields of R91. -/

namespace Sys2Proof.Laws.EncodeFields

open Sys2Proof.Machine

/-- The three fields of the instruction's REQ word (R91, R92). -/
def Statement (i : Instr) : Prop :=
  reqOp (encode i) = i.opCode ∧ reqAddr (encode i) = i.addrField ∧ reqData (encode i) = i.dataField

theorem rb (addr : Addr) : Statement (.rb addr) := reqWord_fields _ _ _

theorem rw (addr : Addr) : Statement (.rw addr) := reqWord_fields _ _ _

theorem wb (addr : Addr) (value : Byte) : Statement (.wb addr value) := reqWord_fields _ _ _

theorem ww (addr : Addr) (value : Word) : Statement (.ww addr value) := reqWord_fields _ _ _

end Sys2Proof.Laws.EncodeFields
end

