-- ==== Sys2Proof/Tests/Slice0.lean ====
section
/-! SUPPORT. The model's own tests: words and results written out from the spec, and for every statement that has hypotheses a
state and operands that meet them together. -/

namespace Sys2Proof.Tests

open Sys2Proof.Machine

/-! The checks of WellFormed.lean and the encodings -/

/-- R91: a number with a bit above bit 33 is no REQ word; R145: a word operation at 0xFFFF is malformed. -/
theorem test_wellFormed_refuses :
    ReqFits (2 ^ 34) = false ∧ ReqFits (2 ^ 34 - 1) = true ∧ decodeNat (2 ^ 34) = .error .widerThanReq ∧
      decodeTableWord 40 (2 ^ 34) = none ∧ (Instr.rw 0xFFFF).wellFormed = false ∧
      (Instr.ww 0xFFFF 0x1234).wellFormed = false ∧ (Instr.rb 0xFFFF).wellFormed = true ∧
      (Instr.ww 0xFFFE 0x1234).wellFormed = true := by decide

/-- R92: no word fits two rows. -/
theorem test_rows_disjoint : opRows.Pairwise (fun r q => r.pattern &&& q.mask ≠ q.pattern) := by decide

/-- R91, R92, V2: op 00, address 0xA12C, payload ignored. -/
theorem test_decode_rb :
    decode 0b0010100001001011000000000000000000#34 = .rb 0xA12C ∧
      decode 0b0010100001001011001111111111111111#34 = .rb 0xA12C := by decide

/-- R91, R92, V2: op 01, address 0xA12C. -/
theorem test_decode_rw : decode 0b0110100001001011000000000000000000#34 = .rw 0xA12C := by decide

/-- R91, R92, V1: op 10, address 0xA12C, payload 0x93; bits 15:8 ignored. -/
theorem test_decode_wb :
    decode 0b1010100001001011000000000010010011#34 = .wb 0xA12C 0x93 ∧
      decode 0b1010100001001011001010101010010011#34 = .wb 0xA12C 0x93 := by decide

/-- R91, R92, V2: op 11, address 0xA12C, payload 0x9383. -/
theorem test_decode_ww : decode 0b1110100001001011001001001110000011#34 = .ww 0xA12C 0x9383 := by decide

/-- R104 b: two words that are the same request, and two that are not. -/
theorem test_same_request :
    decode 0x2A12C0093#34 = decode 0x2A12CFF93#34 ∧ decode 0x3A12C0093#34 ≠ decode 0x3A12CFF93#34 := by decide

/-- T3, T4, T5: the response words 0x00042, 0x30000, 0x50000, 0x60000. -/
theorem test_response_words :
    (Rsp.encode ⟨.okData, false, 0x42⟩, Rsp.encode ⟨.okNoData, true, 0⟩, Rsp.encode ⟨.memError, true, 0⟩,
      Rsp.encode ⟨.malformed, false, 0⟩) = (0x00042#19, 0x30000#19, 0x50000#19, 0x60000#19) := by decide

/-! States the tests start from -/

/-- The reset state with the ModeTimer elsewhere. -/
def at_ (m : Mode) (c : BitVec 9) (l : BitVec 8) : State := { State.reset with timer := ⟨m, c, l⟩ }

/-- T3's start: `oam[0]` = 0x42. -/
def oam42 : State := { State.reset with mem := State.reset.mem.write .oam 0 0x42 }

/-- The reset state under STRICT_UNSUPPORTED. -/
def strict : State := State.resetWith { strict := true }

/-- The state with the arbiter serving port G. -/
def onG (s : State) : State := { s with arb := { s.arb with port := .portG } }

/-- The state with the channel severed. -/
def severed (s : State) : State := { s with arb := { s.arb with alive := false } }

/-- The state with the fatal latch set. -/
def stopped : State := raiseFatal .malformedRequest State.reset

/-- The state with given moves still to come. -/
def withMoves (ms : List Move) (s : State) : State := { s with moves := ms }

/-- The state with a request pending on a port. -/
def pending (p : Port) (i : Instr) (s : State) : State := enqueueRequest p (encode i) s

/-- What a part of an outcome's next state is. -/
def after {α : Type} (o : Result) (f : State → α) : Option α := (nextState? o).map f

/-- A sprite on line 0, its left edge at column 0 (R211, R239). -/
def sprite : SpriteRec := { y := 16, x := 8, tile := 1, flags := 0x30 }

/-- A FIFO of nine background slots, under the first sprite of the list, with tile 1 row 0 as in P3. -/
def overlaying : State :=
  { State.reset with
    timer := ⟨.pixelTransfer, 11, 0⟩
    tile := [(8, 0xF0CC)]
    sprites := { recs := Vector.replicate 40 sprite, vis := [0, 1] }
    pipe := { fifo := Vector.ofFn fun k => { valid := k.val < 9, src := .bg, code := 1 }, count := 9 } }

/-! The four operations -/

/-- T3: port P reads a locked sprite byte as zero with `unsup`, port G reads the cell. -/
theorem test_rb_locked :
    after (exec (.rb 0xFE00) oam42) (·.arb.replyP) = some (some ⟨.okData, true, 0⟩) ∧
      after (exec (.rb 0xFE00) (onG oam42)) (·.arb.replyG) = some (some ⟨.okData, false, 0x42⟩) := by decide

/-- T4: an I/O read under STRICT_UNSUPPORTED. -/
theorem test_rb_strict : after (exec (.rb 0xFF00) strict) (·.arb.replyP) = some (some ⟨.memError, true, 0⟩) := by decide

/-- T3: a word read across 0xFDFF, working RAM low and locked sprite memory high. -/
theorem test_rw_crosses :
    after (exec (.rw 0xFDFF) { oam42 with mem := oam42.mem.write .wram 0x1DFF 0xBB }) (·.arb.replyP) =
      some (some ⟨.okData, true, 0x00BB⟩) := by decide

/-- T5 (a): a word read at 0xFFFF. -/
theorem test_rw_malformed :
    after (exec (.rw 0xFFFF) State.reset) (fun t => (t.arb.replyP, t.arb.fatal, t.arb.cause)) =
      some (some ⟨.malformed, false, 0⟩, true, .malformedRequest) := by decide

/-- V1: a byte written to external RAM. -/
theorem test_wb_eram :
    after (exec (.wb 0xA12C 0x93) State.reset) (fun t => (t.arb.replyP, t.mem.read .eram 0x012C)) =
      some (some ⟨.okNoData, false, 0⟩, 0x93) := by decide

/-- T6: a byte written to video memory and its tile row. -/
theorem test_wb_tile :
    after (exec (.wb 0x8003 0xC6) State.reset) (fun t => (t.mem.read .vram 3, t.tileRow 0 1)) = some (0xC6, 0x00C6) := by
  decide

/-- R124: a word across 0x7FFF: the low byte discarded, the high byte stored, its tile row, `unsup`. -/
theorem test_ww_crosses :
    after (exec (.ww 0x7FFF 0xABCD) State.reset) (fun t => (t.arb.replyP, t.mem.read .vram 0, t.tileRow 0 0)) =
      some (some ⟨.okNoData, true, 0⟩, 0xAB, 0xAB00) := by decide

/-- T3: a word across 0xFDFF: the low byte stored, the high byte lost to the lock. -/
theorem test_ww_locked :
    after (exec (.ww 0xFDFF 0xAABB) oam42) (fun t => (t.arb.replyP, t.mem.read .wram 0x1DFF, t.mem.read .oam 0)) =
      some (some ⟨.okNoData, true, 0⟩, 0xBB, 0x42) := by decide

/-- T5 (c): on a severed channel the severed failure comes before the malformed check. -/
theorem test_severed_first :
    after (exec (.rw 0xFFFF) (severed State.reset)) (fun t => (t.arb.replyP, t.arb.cause)) = some (none, .channelSevered) := by
  decide

/-! A step, the graphics unit -/

/-- A request placed for the next step is what the step runs, as the first after reset. -/
theorem test_first_step :
    after (step (State.reset.withFetchWord 34 0x3A12C9383)) (fun t => (t.arb.replyP, t.mem.read .eram 0x12C, t.mem.read .eram 0x12D)) =
      some (some ⟨.okNoData, false, 0⟩, 0x83, 0x93) := by decide

/-- R172: from reset the first tick reads the first word of sprite memory and counts. -/
theorem test_oam_tick :
    after (tick oam42) (fun t => (t.timer, t.sprites.recs[0])) =
      some (⟨.oamScan, 1, 0⟩, { y := 0x42, x := 0, tile := 0, flags := 0 }) := by decide

/-- R172: the 80th tick of OAMScan enters PixelTransfer. -/
theorem test_oam_end : after (tick (at_ .oamScan 79 0)) (·.timer) = some ⟨.pixelTransfer, 0, 0⟩ := by decide

/-- R174: from (HBlank, 203, 0) and (HBlank, 203, 143). -/
theorem test_hblank_end :
    after (tick (at_ .hBlank 203 0)) (·.timer) = some ⟨.oamScan, 0, 1⟩ ∧
      after (tick (at_ .hBlank 203 143)) (fun t => (t.timer, t.strobes)) = some (⟨.vBlank, 0, 144⟩, [.frameDone]) := by decide

/-- R175: from (VBlank, 455, 153). -/
theorem test_vblank_end : after (tick (at_ .vBlank 455 153)) (·.timer) = some ⟨.oamScan, 0, 0⟩ := by decide

/-- R158: no tick passes while port P's request is outstanding; the service makes room for it. -/
theorem test_tick_waits :
    tick (pending .portP (.rb 0) State.reset) = .fault (.portBlocked .portP) ∧
      after (thenRun (service (pending .portP (.rb 0) State.reset)) tick) (·.timer) = some ⟨.oamScan, 1, 0⟩ :=
  ⟨rfl, by decide⟩

/-- R233, T5 (e): the first dot of a pair sets the phase, and on a severed channel the second fails after clearing it. -/
theorem test_fetch_phase :
    after (tick (at_ .pixelTransfer 0 0)) (·.pipe.phase) = some true ∧
      after (tick (severed { at_ .pixelTransfer 1 0 with pipe := { phase := true } }))
        (fun t => (t.arb.cause, t.timer, t.pipe.phase, t.pipe.fstate)) =
        some (.channelSevered, ⟨.pixelTransfer, 1, 0⟩, false, .resolve) := by decide

/-- T8: visibility of y = 16, 9 and 159, and y = 0 on no line. -/
theorem test_visible :
    spriteVisible { y := 16 } 0 = true ∧ spriteVisible { y := 16 } 7 = true ∧ spriteVisible { y := 16 } 8 = false ∧
      spriteVisible { y := 9 } 0 = true ∧ spriteVisible { y := 9 } 1 = false ∧ spriteVisible { y := 159 } 143 = true ∧
      spriteVisible { y := 8 } 0 = false ∧ spriteVisible {} 0 = false := by decide

/-- R214, T8: the list stops at ten. -/
theorem test_scanline : scanline { recs := Vector.replicate 40 sprite } 7 = [0, 1, 2, 3, 4, 5, 6, 7, 8, 9] ∧
    scanline { recs := Vector.replicate 40 sprite } 8 = [] := by decide

/-- P3: the flipped sprite's pixels 0 0 1 1 2 2 3 3, tag SPR1, over background of code 1; the first listed sprite only. -/
theorem test_overlay :
    after (overlayStage overlaying)
        (fun t => ((List.finRange 16).take 9 |>.map fun k => (t.pipe.fifo[k].src, t.pipe.fifo[k].code.toNat))) =
      some [(.bg, 1), (.bg, 1), (.spr1, 1), (.spr1, 1), (.spr1, 2), (.spr1, 2), (.spr1, 3), (.spr1, 3), (.bg, 1)] ∧
    after (overlayStage overlaying) (fun t => (t.sprites.consumed[0], t.sprites.consumed[1])) = some (true, false) := by decide

/-- R99, 90_conflicts.md C1: the colour names of codes 0 and 3. -/
theorem test_shades :
    pixelShade {} ⟨.bg, 0⟩ = .black ∧ pixelShade {} ⟨.spr0, 3⟩ = .white := by decide

/-! The ends of the eleven regions -/

/-- One marked byte at each end of each array, the overlay on, sprite memory not locked. -/
def marked : State :=
  { State.reset with
    inBoot := true
    timer := ⟨.hBlank, 0, 0⟩
    mem :=
      { boot := [(0, 1), (255, 2)], rom0 := [(0, 3), (0x100, 4), (0x3FFF, 5)], rom1 := [(0, 6), (0x3FFF, 7)]
        vram := [(0, 8), (0x1FFF, 9)], eram := [(0, 10), (0x1FFF, 11)], wram := [(0, 12), (0x1DFF, 13), (0x1FFF, 14)]
        oam := [(0, 15), (159, 16)], zram := [(0, 17), (127, 18)] } }

/-- R61, R121, R127: the byte read at each end of each region, with its `unsup` bit; the addresses at which the clauses of
DecodeLadder and ReadByteByRegion meet. -/
theorem witness_ReadByteByRegion :
    ([0x0000, 0x00FF, 0x0100, 0x3FFF, 0x4000, 0x7FFF, 0x8000, 0x9FFF, 0xA000, 0xBFFF].map (readByte marked .portP) =
      [(1, false), (2, false), (4, false), (5, false), (6, false), (7, false), (8, false), (9, false), (10, false),
        (11, false)]) ∧
    ([0xC000, 0xDFFF, 0xE000, 0xFDFF, 0xFE00, 0xFE9F, 0xFEA0, 0xFEFF, 0xFF00, 0xFF7F, 0xFF80, 0xFFFF].map
      (readByte marked .portP) =
      [(12, false), (14, false), (12, false), (13, false), (15, false), (16, false), (0, false), (0, false), (0, true),
        (0, true), (17, false), (18, false)]) ∧
    [0x0000, 0x00FF].map (readByte { marked with inBoot := false } .portP) = [(3, false), (0, false)] ∧
    [0xFE00, 0xFE9F].map (readByte { marked with timer := ⟨.oamScan, 0, 0⟩ } .portP) = [(0, true), (0, true)] ∧
    [0xFE00, 0xFE9F].map (readByte { marked with timer := ⟨.pixelTransfer, 0, 0⟩ } .portG) = [(15, false), (16, false)] ∧
    marked.cfg.ioRead = [] := by
  decide

/-- R61: the region named at each end, with the overlay off where it makes a difference. -/
theorem witness_DecodeLadder :
    ([0x0000, 0x00FF, 0x0100, 0x3FFF, 0x4000, 0x7FFF, 0x8000, 0x9FFF, 0xA000, 0xBFFF, 0xC000, 0xDFFF].map (regionOf true) =
      [.boot, .boot, .rom0, .rom0, .rom1, .rom1, .video, .video, .externalRam, .externalRam, .workRam, .workRam]) ∧
    ([0xE000, 0xFDFF, 0xFE00, 0xFE9F, 0xFEA0, 0xFEFF, 0xFF00, 0xFF7F, 0xFF80, 0xFFFF].map (regionOf true) =
      [.workShadow, .workShadow, .spriteMemory, .spriteMemory, .zeroSink, .zeroSink, .ioSink, .ioSink, .zeroPage,
        .zeroPage]) ∧
    [0x0000, 0x00FF].map (regionOf false) = [.rom0, .rom0] := by decide

/-- R122, R127: the cell stored to at each end of each region, with the `unsup` bit, not locked and locked. -/
theorem witness_WriteByteByRegion :
    ([0x0000, 0x7FFF, 0x8000, 0x9FFF, 0xA000, 0xBFFF].map (fun a => (marked.storeCell a, marked.writeUnsup a)) =
      [(none, true), (none, true), (some (.vram, 0), false), (some (.vram, 0x1FFF), false), (some (.eram, 0), false),
        (some (.eram, 0x1FFF), false)]) ∧
    ([0xC000, 0xFDFF, 0xFE00, 0xFE9F, 0xFEA0, 0xFEFF].map (fun a => (marked.storeCell a, marked.writeUnsup a)) =
      [(some (.wram, 0), false), (some (.wram, 0x1DFF), false), (some (.oam, 0), false), (some (.oam, 159), false),
        (none, false), (none, false)]) ∧
    ([0xFF00, 0xFF7F, 0xFF80, 0xFFFF].map (fun a => (marked.storeCell a, marked.writeUnsup a)) =
      [(none, true), (none, true), (some (.zram, 0), false), (some (.zram, 127), false)]) ∧
    ([0xFE00, 0xFE9F].map (fun a => (State.reset.storeCell a, State.reset.writeUnsup a)) = [(none, true), (none, true)]) ∧
    marked.oamLocked = false ∧ State.reset.oamLocked = true := by decide

/-! A state and operands that meet the hypotheses of each statement -/

theorem witness_EveryWordIsOneRow :
    (opRows.map fun r => r.fits 0x2A12C0093#34) = [false, false, true, false] ∧ reqOp 0x2A12C0093#34 = 2 ∧
      reqOp 0x3A12C0093#34 = 3 := by decide

theorem witness_ShadowAliasesWorkRam :
    ([0xE000, 0xFDFF] : List Addr).all (fun a => 0xE000 ≤ a.toNat ∧ a.toNat ≤ 0xFDFF ∧ marked.region a = .workShadow) = true :=
  by decide

theorem witness_ByteRoundTrip :
    (marked.writable 0x8000 ∧ marked.writable 0xFDFF) ∧ (marked.writable 0xFE00 ∧ marked.writable 0xFE9F) ∧
      marked.writable 0xFF80 ∧ marked.writable 0xFFFF :=
  ⟨⟨.inl (by decide), .inl (by decide)⟩, ⟨.inr (.inr (by decide)), .inr (.inr (by decide))⟩, .inr (.inl (by decide)),
    .inr (.inl (by decide))⟩

/-- A pair across 0xFDFF, and the highest pair. -/
theorem witness_WordRoundTrip :
    ((0xFDFF#16 : Addr) ≠ 0xFFFF ∧ marked.writable 0xFDFF ∧ marked.writable (0xFDFF + 1)) ∧
      (0xFFFE#16 : Addr) ≠ 0xFFFF ∧ marked.writable 0xFFFE ∧ marked.writable (0xFFFE + 1) :=
  ⟨⟨by decide, .inl (by decide), .inr (.inr (by decide))⟩, by decide, .inr (.inl (by decide)), .inr (.inl (by decide))⟩

/-- R191's corner cases: 0x17FF is the odd byte of tile 383 row 7, 0x1800 touches no row. -/
theorem witness_VideoWriteRecomputesRow :
    (writeVideoByte 0x17FF 0x11 marked).tileRow 383 7 = 0x0011 ∧ (writeVideoByte 0x1800 0x22 marked).tile = marked.tile ∧
      (writeVideoByte 0 0x11 marked).tileRow 0 0 = 0x1100 ∧ (writeVideoByte 0x1FFF 0x22 marked).mem.read .vram 0x1FFF = 0x22 := by
  decide

theorem witness_TileRowIsByteSwapped : (writeWord 0x97FE 0x1133 marked).tileRow 383 7 = 0x3311 ∧ 0xBFF < 0xC00 := by decide

theorem witness_WritesAreIdempotent : (0xFFFE#16 : Addr) ≠ 0xFFFF := by decide

theorem witness_TileCacheStaysCoherent :
    ∃ s t : State, s.TilesAgree ∧ (∀ k < 0x1800, s.cfg.ramInit.read .vram k = 0) ∧ (nextMove s).1 ≠ .tileReset ∧
      step s = .next t :=
  ⟨withMoves [.transact .portP 0x280030093] State.reset, _, fun _ _ _ _ => (by decide : 0#16 = joinBytes 0 0), fun _ _ => rfl, by decide, rfl⟩

theorem witness_ReadByteCompletes : State.reset.arb.fatal = false ∧ State.reset.arb.alive = true := by decide

theorem witness_ReadWordCompletes :
    (0xFFFE#16 : Addr) ≠ 0xFFFF ∧ marked.arb.fatal = false ∧ marked.arb.alive = true := by decide

theorem witness_WriteByteCompletes : marked.arb.fatal = false ∧ marked.arb.alive = true ∧
    marked.storeCell 0x8000 = some (.vram, 0) ∧ ∀ k, marked.storeCell 0xA000 ≠ some (.vram, k) :=
  ⟨by decide, by decide, by decide, fun _ h => by cases h⟩

theorem witness_WriteWordCompletes : (0x9FFF#16 : Addr) ≠ 0xFFFF ∧ marked.arb.fatal = false ∧ marked.arb.alive = true ∧
    marked.storeCell 0x9FFF = some (.vram, 0x1FFF) ∧ marked.storeCell (0x9FFF + 1) = some (.eram, 0) := by decide

theorem witness_MalformedRequestIsFatal :
    (State.reset.arb.fatal = false ∧ State.reset.arb.alive = true) ∧
      ∃ t, Instr.rw 0xFFFE ≠ .rw 0xFFFF ∧ (∀ w, Instr.rw 0xFFFE ≠ .ww 0xFFFF w) ∧ exec (.rw 0xFFFE) State.reset = .next t :=
  ⟨by decide, _, by decide, fun _ => by simp, rfl⟩

theorem witness_SeveredRequestIsFatal : (severed marked).arb.fatal = false ∧ (severed marked).arb.alive = false := by decide

theorem witness_FatalStopsEverything : stopped.arb.fatal = true ∧ Move.tick ≠ .reset := by decide

theorem witness_ResponsesAreWellFormed :
    (∃ t r, step (withMoves [.transact .portP 0x2A12C0093] State.reset) = .next t ∧ t.arb.reply .portP = some r ∧
      r.status ≠ .okData) ∧
    (∃ t r, step (withMoves [.transact .portP 0x0FF000000] strict) = .next t ∧ t.arb.reply .portP = some r ∧
      r.status = .memError) ∧
    ∃ t r, step (withMoves [.transact .portG 0x1FFFF0000] State.reset) = .next t ∧ t.arb.reply .portG = some r ∧
      r.status = .malformed :=
  ⟨⟨_, _, rfl, rfl, by decide⟩, ⟨_, _, rfl, rfl, by decide⟩, ⟨_, _, rfl, rfl, by decide⟩⟩

theorem witness_SubmitFillsLatch : marked.arb.fatal = false ∧ (marked.arb.req .portG).valid = false := by decide

theorem witness_BlockedStepsNotEnabled :
    (pending .portG (.rb 0) State.reset).arb.fatal = false ∧
      ((pending .portG (.rb 0) State.reset).arb.req .portG).valid = true ∧
      (pending .portP (.rb 0) State.reset).arb.reqG.valid = false ∧
      (pending .portP (.rb 0) State.reset).arb.reqP.valid = true ∧ State.reset.arb.queue = [] := by decide

theorem witness_StepRunsServicedRequest :
    (∃ s : State, s.moves = .service :: [] ∧ s.arb.queue = .portP :: [] ∧ s.arb.fatal = false) ∧
      (withMoves [.tick] State.reset).moves = .tick :: [] ∧ State.reset.moves = [] :=
  ⟨⟨withMoves [.service] (pending .portP (.rb 0) State.reset), by decide, by decide, by decide⟩, by decide, by decide⟩

theorem witness_StepRunsTransaction :
    ∃ s : State, s.moves = .transact .portP 0x2A12C0093#34 :: [] ∧ s.arb.queue = [] ∧ s.arb.fatal = false ∧
      (s.arb.req .portP).valid = false :=
  ⟨withMoves [.transact .portP 0x2A12C0093] State.reset, by decide, by decide, by decide, by decide⟩

/-- Both cases: the earlier request is served and the block goes on, or it is malformed and ends the run. -/
theorem witness_ArrivalOrderIsServiceOrder :
    (Port.portG ≠ .portP ∧ (pending .portG (.rw 0) State.reset).arb.queue = [.portG] ∧
      ((pending .portG (.rw 0) State.reset).arb.req .portP).valid = false) ∧
    after (exec (.rw 0) (onG State.reset)) (·.arb.fatal) = some false ∧
    after (transact .portP 0x2A12C0093 (pending .portG (.rw 0) State.reset)) (fun t => (t.arb.replyP, t.arb.replyG)) =
      some (some ⟨.okNoData, false, 0⟩, some ⟨.okData, false, 0⟩) ∧
    after (transact .portP 0x2A12C0093 (pending .portG (.rw 0xFFFF) State.reset)) (fun t => (t.arb.fatal, t.arb.queue)) =
      some (true, [.portP]) := by decide

/-- TIE_BREAK is a free value: nothing is known but that it is one of the two ports. -/
theorem witness_SimultaneousArrivals :
    (State.reset.arb.fatal = false ∧ State.reset.arb.reqP.valid = false ∧ State.reset.arb.reqG.valid = false) ∧
      (Config.tieBreak State.reset.draws = .portP ∨ Config.tieBreak State.reset.draws = .portG) :=
  ⟨by decide, by cases Config.tieBreak State.reset.draws <;> simp⟩

theorem witness_ReplyGoesToRequester :
    (∃ t, (pending .portP (.rb 0) State.reset).arb.queue = .portP :: [] ∧
      service (pending .portP (.rb 0) State.reset) = .next t ∧ (pending .portP (.rb 0) State.reset).arb.alive = true) ∧
    ∃ t, (severed (pending .portG (.rb 0) State.reset)).arb.queue = .portG :: [] ∧
      service (severed (pending .portG (.rb 0) State.reset)) = .next t ∧
        (severed (pending .portG (.rb 0) State.reset)).arb.alive = false :=
  ⟨⟨_, by decide, rfl, by decide⟩, ⟨_, by decide, rfl, by decide⟩⟩

theorem witness_OnlyTicksMoveTimer :
    (∃ t, Move.transact .portP 0x2A12C0093 ≠ .tick ∧ Move.transact .portP 0x2A12C0093 ≠ .reset ∧
      applyMove (.transact .portP 0x2A12C0093) marked = .next t) ∧
    ((pending .portP (.rb 0) State.reset).arb.req .portP).valid = true := ⟨⟨_, by decide, by decide, rfl⟩, by decide⟩

theorem witness_RomAndConfigWriters :
    ∃ t, applyMove (.transact .portP 0x200000011) marked = .next t ∧ Move.transact .portP 0x200000011 ≠ .reset ∧
      (∀ b, Move.transact .portP 0x200000011 ≠ .loadBoot b) ∧ (∀ b, Move.transact .portP 0x200000011 ≠ .loadRom b) ∧
      ∀ b, Move.transact .portP 0x200000011 ≠ .setInBoot b :=
  ⟨_, rfl, by decide, fun _ => by simp, fun _ => by simp, fun _ => by simp⟩

theorem witness_GraphicsNeverWrites : ∃ t, tick overlaying = .next t := ⟨_, rfl⟩

theorem witness_LockedOamUnchanged :
    ∃ t, oam42.oamLocked = true ∧ Move.transact .portP 0x2FE000011 ≠ .reset ∧
      applyMove (.transact .portP 0x2FE000011) oam42 = .next t := ⟨_, by decide, by decide, rfl⟩

theorem witness_StepKeepsInvariants :
    ∃ t, (withMoves [.tick] overlaying).Inv ∧ (withMoves [.tick] overlaying).SelectedVisible ∧
      step (withMoves [.tick] overlaying) = .next t := ⟨_, by decide, by decide, rfl⟩

theorem witness_DefectFaultsUnreachable :
    ∃ t, (withMoves [.tick] overlaying).Inv ∧ (withMoves [.tick] overlaying).SelectedVisible ∧
      step (withMoves [.tick] overlaying) = .next t ∧ (withMoves [.tick] overlaying).arb.fatal = false :=
  ⟨_, by decide, by decide, rfl, by decide⟩

theorem witness_TicksKeepRunning : overlaying.Running ∧ overlaying.sprites.vis ≠ [] := by decide

/-- One word scanned, the next one due. -/
def scanning : State :=
  { oam42 with
    timer := ⟨.oamScan, 1, 0⟩
    sprites := { recs := (Vector.replicate 40 {}).set 0 { y := 0x42 } } }

theorem witness_SpriteCopyAgrees :
    ∃ t, (withMoves [.tick] scanning).Inv ∧ (withMoves [.tick] scanning).ScanAgrees ∧
      step (withMoves [.tick] scanning) = .next t ∧ scanning.cfg.oamLockModes.contains .oamScan = true ∧
      scanning.cfg.oamLockModes.contains .pixelTransfer = true ∧ scanning.scannedCount = 1 :=
  ⟨_, by decide, by unfold State.ScanAgrees; decide, rfl, by decide, by decide, by decide⟩

theorem witness_OamScanTick :
    ([0, 1, 78, 79] : List (BitVec 9)).all (fun c =>
      (at_ .oamScan c 143).arb.alive = true ∧ (at_ .oamScan c 143).arb.fatal = false ∧ (at_ .oamScan c 143).NothingPending ∧
        (at_ .oamScan c 143).timer.mode = .oamScan ∧
        (at_ .oamScan c 143).timer.counter.toNat < 80 ∧ (at_ .oamScan c 143).timer.line.toNat ≤ 153) = true := by decide

/-- Each clause: a dot that fails, an inner dot, the last dot. -/
theorem witness_PixelTransferTick :
    (∃ u, dot (severed { at_ .pixelTransfer 1 0 with pipe := { phase := true } }) = .next u ∧ u.arb.fatal = true) ∧
    (∃ u, dot (at_ .pixelTransfer 170 143) = .next u ∧ u.arb.fatal = false) ∧
    (∃ u, dot (at_ .pixelTransfer 171 143) = .next u ∧ u.arb.fatal = false) ∧
    (at_ .pixelTransfer 171 143).NothingPending ∧ (at_ .pixelTransfer 171 143).timer.line.toNat ≤ 153 :=
  ⟨⟨_, rfl, by decide⟩, ⟨_, rfl, by decide⟩, ⟨_, rfl, by decide⟩, by decide, by decide⟩

theorem witness_HBlankTick :
    (at_ .hBlank 203 143).arb.fatal = false ∧ (at_ .hBlank 203 143).NothingPending ∧
      (at_ .hBlank 203 143).timer.line.toNat = 143 ∧ (at_ .hBlank 202 0).timer.counter.toNat < 203 ∧
      (at_ .hBlank 203 0).timer.line.toNat ≠ 143 := by decide

theorem witness_VBlankTick :
    (at_ .vBlank 455 153).arb.fatal = false ∧ (at_ .vBlank 455 153).NothingPending ∧
      (at_ .vBlank 455 153).timer.line.toNat = 153 ∧ (at_ .vBlank 454 144).timer.counter.toNat < 455 ∧
      (at_ .vBlank 455 152).timer.line.toNat < 153 := by decide

theorem witness_LineOutOfRangeIsFatal :
    (at_ .vBlank 0 154).arb.fatal = false ∧ (at_ .vBlank 0 154).NothingPending ∧
      153 < (at_ .vBlank 0 154).timer.line.toNat := by decide

theorem witness_FrameArithmetic :
    (oam42.Running ∧ oam42.timer = { mode := .oamScan, counter := 0, line := 0 }) ∧
      (overlaying.Running ∧ overlaying.timer = timerAfter 91) ∧
      (at_ .vBlank 455 153).Running ∧ (at_ .vBlank 455 153).timer = timerAfter 70223 :=
  ⟨by decide, ⟨by decide, by decide⟩, by decide, by decide⟩

/-- The start of PixelTransfer on line 0 with two sprites listed. -/
def lineStart : State :=
  { overlaying with
    timer := ⟨.pixelTransfer, 0, 0⟩
    pipe := {} }

/-- The same line before its dot 11, on which the first pixel is pushed (R245). -/
def lineStarted : State :=
  { lineStart with
    timer := ⟨.pixelTransfer, 11, 0⟩
    pipe :=
      { fstate := .high, phase := true, fetchX := 1, count := 8
        fifo := Vector.ofFn fun k => { valid := k.val < 8, src := .bg, code := 1 } } }

theorem witness_LineTimeline :
    (∃ t, (withMoves [.tick] lineStarted).Inv ∧ (withMoves [.tick] lineStarted).OnSchedule ∧
      step (withMoves [.tick] lineStarted) = .next t ∧ t.arb.fatal = false ∧ t.pipe.outCol = 1) ∧
    (lineStart.Running ∧ lineStart.timer.mode = .pixelTransfer ∧ lineStart.timer.counter = 0 ∧
      lineStart.pipe = lineResetPipe lineStart.pipe ∧ lineStart.sprites.vis ≠ []) :=
  ⟨⟨_, by decide, by unfold State.OnSchedule; decide, rfl, by decide, by decide⟩, by decide⟩

theorem witness_SpriteRecordRules :
    ({ y := 16, flags := 0b10100000 } : SpriteRec).y = 16 ∧ ({ flags := 0b10100000 } : SpriteRec).flags = 0b10100000 := by
  decide

/-- Record 39 is visible and not consumed, and not among the ten. -/
theorem witness_ScanlineSelectsFirstTen :
    spriteVisible overlaying.sprites.recs[39] 0 = true ∧ overlaying.sprites.consumed[39] = false ∧
      (39 : Fin 40) ∉ scanline overlaying.sprites 0 ∧ (9 : Fin 40) ∈ scanline overlaying.sprites 0 := by decide

theorem witness_LineStartAndEnd :
    160 ≤ ({ marked with pipe := { outCol := 160 } } : State).pipe.outCol.toNat ∧
    (∃ u, (severed lineStarted).pipe.outCol.toNat < 160 ∧ fetchStage (severed lineStarted) = .next u ∧ u.arb.fatal = true) ∧
    ∃ u, lineStarted.pipe.outCol.toNat < 160 ∧ fetchStage lineStarted = .next u ∧ u.arb.fatal = false :=
  ⟨by decide, ⟨_, by decide, rfl, by decide⟩, ⟨_, by decide, rfl, by decide⟩⟩

/-- A fetcher in any state, at either phase, on an idle port. -/
theorem witness_FetchStageSteps :
    (∀ f ∈ [FState.resolve, .low, .high, .enq], ∀ b ∈ [true, false],
      ({ marked with pipe := { fstate := f, phase := b } } : State).PortGIdle ∧
        ({ marked with pipe := { fstate := f, phase := b } } : State).pipe.fstate = f ∧
        ({ marked with pipe := { fstate := f, phase := b } } : State).pipe.phase = b) ∧
    marked.cfg.bgMap = [] ∧ marked.cfg.bgData = [] ∧ (bgMapAddr marked.cfg 143 31).toNat = 0x9A3F ∧
      (bgDataAddr marked.cfg 255 143).toNat = 0x8FFE := by decide

/-- Room at 8, none at 9, and a fetcher that is not due. -/
theorem witness_EnqueueAppendsRow :
    (({ fstate := .enq, count := 8 } : Pipeline).fstate = .enq ∧ ({ fstate := .enq, count := 8 } : Pipeline).count.toNat ≤ 8) ∧
      8 < ({ fstate := .enq, count := 9 } : Pipeline).count.toNat ∧ ({ fstate := .high } : Pipeline).fstate ≠ .enq := by decide

theorem witness_OverlayRule :
    overlaying.arb.fatal = false ∧
      spriteVisible overlaying.sprites.recs[(0 : Fin 40)] overlaying.timer.line.toNat = true ∧
      ∀ k : Fin 16, k.val < 8 → overlaying.pipe.fifo[k].valid = true := by decide

/-- The first invalid slot may be slot 0 or slot 7. -/
theorem witness_EmptySlotIsFatal :
    ∀ i ∈ ([0, 7] : List (Fin 16)), overlaying.arb.fatal = false ∧ i.val < 8 ∧
      spriteVisible overlaying.sprites.recs[(0 : Fin 40)] overlaying.timer.line.toNat = true ∧
      (∀ k : Fin 16, k < i → (overlaying.pipe.fifo.set i {})[k].valid = true) ∧
      (overlaying.pipe.fifo.set i {})[i].valid = false := by decide

/-- The same FIFO with its slot 7 invalid. -/
def holed : State := { overlaying with pipe := { overlaying.pipe with fifo := overlaying.pipe.fifo.set 7 {} } }

/-- The same sprites at the last column of the line. -/
def lineEnding : State := { overlaying with pipe := { overlaying.pipe with outCol := 159 } }

/-- Two sprites at the same column: the first listed is taken, or the second where the first is consumed. -/
theorem witness_FirstMatchWins :
    (∃ u, overlaying.sprites.vis = [] ++ 0 :: [1] ∧ overlaying.sprites.consumed[(0 : Fin 40)] = false ∧
      (overlaying.sprites.recs[(0 : Fin 40)].x.toNat : Int) - 8 = overlaying.pipe.outCol.toNat ∧
      overlay 0 overlaying = .next u ∧ u.arb.fatal = false) ∧
    (∃ u, holed.sprites.vis = [] ++ 0 :: [1] ∧ overlay 0 holed = .next u ∧ u.arb.fatal = true) ∧
    ((consume 0 overlaying).sprites.vis = [0] ++ 1 :: [] ∧ (consume 0 overlaying).sprites.consumed[(0 : Fin 40)] = true ∧
      (consume 0 overlaying).sprites.consumed[(1 : Fin 40)] = false) ∧
    ∀ m ∈ lineEnding.sprites.vis, (lineEnding.sprites.recs[m].x.toNat : Int) - 8 ≠ lineEnding.pipe.outCol.toNat :=
  ⟨⟨_, by decide, by decide, by decide, rfl, by decide⟩, ⟨_, by decide, rfl, by decide⟩, by decide, by decide⟩

theorem witness_PushRule :
    ({ marked with pipe := { count := 8 } } : State).pipe.count.toNat ≤ 8 ∧
      (∃ u, 8 < holed.pipe.count.toNat ∧ overlayStage holed = .next u ∧ u.arb.fatal = true) ∧
      ∃ u, 8 < overlaying.pipe.count.toNat ∧ overlayStage overlaying = .next u ∧ u.arb.fatal = false :=
  ⟨by decide, ⟨_, by decide, rfl, by decide⟩, ⟨_, by decide, rfl, by decide⟩⟩

/-- R274's example: an image that begins 0x31, 0xFE, 0xFF. -/
theorem witness_ImageLoads :
    State.reset.arb.fatal = false ∧
      [0, 1, 2].map ((loadBoot [0x31, 0xFE, 0xFF] State.reset).mem.read .boot) = [0x31, 0xFE, 0xFF] := by decide

theorem witness_HostEventFrames : marked.arb.fatal = false := by decide

end Sys2Proof.Tests
end

/-! Proofs: a step and the driver's moves (R9, R144, R152, R170, R270) -/

section
namespace Sys2Proof.Machine

/-- A chosen move is applied to the state without it, with the last step's outputs gone (R9, R270). -/
theorem step_of_chosen_move {s : State} {m : Move} {ms : List Move} (h : s.moves = m :: ms) :
    step s = applyMove m { beginStep s with moves := ms } := by
  simp [step, runNextMove, nextMove, h]

/-- With no move chosen, the free move is applied and the draw counted (R270). -/
theorem step_of_free_move {s : State} (h : s.moves = []) :
    step s = applyMove (freeMove s) { beginStep s with draws := s.draws + 1 } := by
  simp [step, runNextMove, nextMove, h]

/-- The start of a step leaves the latches as they are. -/
@[simp] theorem beginStep_req (p : Port) (s : State) : (beginStep s).arb.req p = s.arb.req p := by
  cases p <;> rfl

/-- Taking the head of the queue leaves the latches as they are (R144). -/
@[simp] theorem takeHead_req (p q : Port) (rest : List Port) (s : State) :
    (takeHead p rest s).arb.req q = s.arb.req q := by
  cases q <;> rfl

/-- Of the latches, a submit fills the port's own and no other (R141). -/
theorem enqueueRequest_req (p q : Port) (w : ReqWord) (s : State) :
    (enqueueRequest p w s).arb.req q = if q = p then latchOf w s.arb.nextStamp else s.arb.req q := by
  cases p <;> cases q <;> rfl

/-- All that a submit with the request's removal from the queue changes: the latches, the queue, the port served and the
next stamp (R141, R144). -/
theorem takeHead_enqueueRequest_frame (p : Port) (rest : List Port) (w : ReqWord) (s : State) :
    takeHead p rest (enqueueRequest p w s) =
      { s with
        arb := { s.arb with
          reqP := (takeHead p rest (enqueueRequest p w s)).arb.reqP
          reqG := (takeHead p rest (enqueueRequest p w s)).arb.reqG
          queue := rest
          port := p
          nextStamp := s.arb.nextStamp + 1 } } := by
  cases p <;> rfl

/-- Settles O28: a chosen or a free move starts the step, and a service then runs the latch at the head of the queue. -/
theorem stepRunsServicedRequest : Obligations.StepRunsServicedRequest := by
  unfold Obligations.StepRunsServicedRequest
  refine ⟨fun s m ms hm => step_of_chosen_move hm, fun s hm => step_of_free_move hm, fun s => rfl, ?_⟩
  intro s ms p q hm hq hf
  calc step s
      = service { beginStep s with moves := ms } := step_of_chosen_move hm
    _ = exec (decode (s.arb.req p).word) (takeHead p q { beginStep s with moves := ms }) := by
        rw [service_runs _ p q (by exact hf) (by exact hq), beginStep_req]

/-- Settles O29: the state the word runs on is the begun step's, with the request submitted and taken from the queue. -/
theorem stepRunsTransaction : Obligations.StepRunsTransaction := by
  unfold Obligations.StepRunsTransaction
  intro s ms p w hm hq hf hv
  refine ⟨takeHead p [] (enqueueRequest p w { beginStep s with moves := ms }), ?_, ?_, ?_, fun q hqp => ?_, ?_⟩
  · rw [step_of_chosen_move hm]
    exact transact_alone p w _ hf hq (by rw [beginStep_req]; exact hv)
  · rw [takeHead_req, enqueueRequest_req, if_pos rfl, latchOf_word]
  · rw [takeHead_req, enqueueRequest_req, if_pos rfl, latchOf]
  · rw [takeHead_req, enqueueRequest_req, if_neg hqp, beginStep_req]
  · exact takeHead_enqueueRequest_frame p [] w _

end Sys2Proof.Machine
end

/-! Proofs: the bus side and the display side of the state, and what keeps each (R34, R35, R23 to R25, R126) -/

section
namespace Sys2Proof.Machine

/-- Whatever the first part of a sequence and its continuation keep, the sequence keeps; a raise ends it (R291). -/
theorem thenRun_keeps {P : State → Prop} {o : Result} {k : State → Result} {t : State} (h : thenRun o k = .next t)
    (ho : ∀ u, o = .next u → P u) (hk : ∀ u, P u → k u = .next t → P t) : P t := by
  obtain ⟨h1, -⟩ | ⟨u, h1, -, h2⟩ := thenRun_next h
  · exact ho t h1
  · exact hk u (ho u h1) h2

/-- Whatever a submit and a draw keep, two submits at one instant keep (R143). -/
theorem submitBoth_keeps {P : State → Prop}
    (he : ∀ p w s, s.arb.fatal = false → (s.arb.req p).valid = false → P s → P (enqueueRequest p w s))
    (hd : ∀ s, P s → P { s with draws := s.draws + 1 }) {wP wG : ReqWord} {s t : State}
    (h : submitBoth wP wG s = .next t) (hs : P s) : P t := by
  have submit_keeps : ∀ {p w u v}, P u → submit p w u = .next v → P v := by
    intro p w u v hu hv
    obtain ⟨hf, hr, rfl⟩ := submit_next hv
    exact he p w u hf hr hu
  unfold submitBoth at h
  simp only at h
  split at h
  · exact thenRun_keeps h (fun _ => submit_keeps (hd s hs)) fun _ => submit_keeps
  · exact thenRun_keeps h (fun _ => submit_keeps (hd s hs)) fun _ => submit_keeps

theorem hostEvent_next {f : State → State} {s t : State} (h : hostEvent f s = .next t) :
    s.arb.fatal = false ∧ t = f s := by
  unfold hostEvent at h
  split at h
  · cases h
  · cases h
    exact ⟨by simp_all, rfl⟩

/-! The bus side -/

/-- The components the bus works with are the same: configuration, storage, overlay flag, tile cache and arbiter. -/
structure SameBus (s t : State) : Prop where
  cfg : t.cfg = s.cfg
  mem : t.mem = s.mem
  inBoot : t.inBoot = s.inBoot
  tile : t.tile = s.tile
  arb : t.arb = s.arb

/-- A property of the bus side that every submit, every service and every raise of Fatal keeps. -/
structure BusInvariant (P : State → Prop) : Prop where
  onSubmit : ∀ p w s, s.arb.fatal = false → (s.arb.req p).valid = false → P s → P (enqueueRequest p w s)
  onService : ∀ s t, P s → service s = .next t → P t
  onRaise : ∀ c s, c ≠ .noCause → P s → P (raiseFatal c s)
  ofSame : ∀ s t, SameBus s t → P s → P t

/-- The HBlank tick changes the timer and the strobes only (R174). -/
theorem hBlankTick_frame (s : State) : ∃ tm st, hBlankTick s = { s with timer := tm, strobes := st } := by
  unfold hBlankTick
  split
  · simp only
    split
    · exact ⟨_, _, rfl⟩
    · exact ⟨_, _, rfl⟩
  · exact ⟨_, _, rfl⟩

/-- The VBlank tick changes the timer only (R175). -/
theorem vBlankTick_frame (s : State) : ∃ tm, vBlankTick s = { s with timer := tm } := by
  unfold vBlankTick
  split
  · simp only
    split
    · exact ⟨_, rfl⟩
    · exact ⟨_, rfl⟩
  · exact ⟨_, rfl⟩

/-- The store of a scanned word does not touch the bus side (R212). -/
theorem loadScanned_sameBus (c : Nat) (w : Word) (s : State) : SameBus s (loadScanned c w s) :=
  ⟨by simp, by simp, by simp, by simp, by simp⟩

section keeps

variable {P : State → Prop} (hP : BusInvariant P) {s t : State}
include hP

theorem BusInvariant.submit_keeps {p : Port} {w : ReqWord} (h : submit p w s = .next t) (hs : P s) : P t := by
  obtain ⟨hf, hv, rfl⟩ := submit_next h
  exact hP.onSubmit p w s hf hv hs

theorem BusInvariant.transact_keeps {p : Port} {w : ReqWord} (h : transact p w s = .next t) (hs : P s) : P t :=
  Machine.transact_keeps P hP.onSubmit hP.onService p w s t h hs

theorem BusInvariant.submitBoth_keeps {wP wG : ReqWord} (h : submitBoth wP wG s = .next t) (hs : P s) : P t :=
  Machine.submitBoth_keeps hP.onSubmit (fun s => hP.ofSame s _ ⟨rfl, rfl, rfl, rfl, rfl⟩) h hs

/-- A port-G read and a change outside the bus side after it (R8, R152). -/
theorem BusInvariant.readThen_keeps {i : Instr} {f : State → State} (hf : ∀ u, SameBus u (f u))
    (h : thenRun (busReadG i s) (fun u => .next (f u)) = .next t) (hs : P s) : P t := by
  refine thenRun_keeps h (fun _ h1 => hP.transact_keeps h1 hs) fun u hu h2 => ?_
  cases h2
  exact hP.ofSame u _ (hf u) hu

theorem BusInvariant.fetchStage_keeps (h : fetchStage s = .next t) (hs : P s) : P t := by
  have phase : ∀ b, P (setPhase b s) := fun b => hP.ofSame s _ ⟨rfl, rfl, rfl, rfl, rfl⟩ hs
  unfold fetchStage at h
  split at h
  · cases h
    exact hs
  · split at h
    · exact hP.readThen_keeps (f := fun u => gotTileNo (lowByte (replyDataG u)) u) (fun _ => ⟨rfl, rfl, rfl, rfl, rfl⟩) h
        (phase false)
    · cases h
      exact phase true
  · split at h
    · exact hP.readThen_keeps (f := fun u => gotByte0 (lowByte (replyDataG u)) u) (fun _ => ⟨rfl, rfl, rfl, rfl, rfl⟩) h
        (phase false)
    · cases h
      exact phase true
  · split at h
    · exact hP.readThen_keeps (f := fun u => gotByte1 (lowByte (replyDataG u)) u) (fun _ => ⟨rfl, rfl, rfl, rfl, rfl⟩) h
        (phase false)
    · cases h
      exact phase true

theorem BusInvariant.overlay_keeps {n : Fin 40} (h : overlay n s = .next t) (hs : P s) : P t := by
  have fr : SameButSlots s t := overlayFrom_frame _ h
  obtain ha | ha := fr.arb
  · exact hP.ofSame s t ⟨fr.cfg, fr.mem, fr.inBoot, fr.tile, ha⟩ hs
  · exact hP.ofSame (raiseFatal .overlayEmptySlot s) t ⟨fr.cfg, fr.mem, fr.inBoot, fr.tile, ha⟩
      (hP.onRaise _ s (by decide) hs)

theorem BusInvariant.emitStage_keeps (h : emitStage s = .next t) (hs : P s) : P t := by
  have overlayStage_keeps : ∀ u, overlayStage s = .next u → P u := by
    intro u hu
    obtain ⟨-, rfl⟩ | ⟨n, v, -, hv, ⟨-, rfl⟩ | ⟨-, rfl⟩⟩ := overlayStage_next hu
    · exact hs
    · exact hP.overlay_keeps hv hs
    · exact hP.ofSame v _ ⟨rfl, rfl, rfl, rfl, rfl⟩ (hP.overlay_keeps hv hs)
  unfold emitStage at h
  split at h
  · refine thenRun_keeps h overlayStage_keeps fun u hu h2 => ?_
    cases h2
    exact hP.ofSame u _ ⟨rfl, rfl, rfl, rfl, rfl⟩ hu
  · cases h
    exact hs

theorem BusInvariant.dot_keeps (h : dot s = .next t) (hs : P s) : P t := by
  unfold dot at h
  split at h
  · cases h
    exact hs
  · exact thenRun_keeps h (fun _ h1 => hP.fetchStage_keeps h1 hs) fun u hu h2 =>
      hP.emitStage_keeps h2 (hP.ofSame u _ ⟨rfl, rfl, rfl, rfl, rfl⟩ hu)

theorem BusInvariant.oamScanTick_keeps (h : oamScanTick s = .next t) (hs : P s) : P t := by
  have started : P (if s.timer.counter = 0 then newLine s else s) := by
    split
    · exact hP.ofSame s _ ⟨rfl, rfl, rfl, rfl, rfl⟩ hs
    · exact hs
  unfold oamScanTick scanStep at h
  refine thenRun_keeps h (fun u h1 => hP.readThen_keeps (fun _ => loadScanned_sameBus _ _ _) h1 started) fun u hu h2 => ?_
  cases h2
  refine hP.ofSame u _ ?_ hu
  split
  · exact ⟨rfl, rfl, rfl, rfl, rfl⟩
  · exact ⟨rfl, rfl, rfl, rfl, rfl⟩

theorem BusInvariant.pixelTransferTick_keeps (h : pixelTransferTick s = .next t) (hs : P s) : P t := by
  unfold pixelTransferTick at h
  refine thenRun_keeps h (fun _ h1 => hP.dot_keeps h1 hs) fun u hu h2 => ?_
  cases h2
  refine hP.ofSame u _ ?_ hu
  split
  · exact ⟨rfl, rfl, rfl, rfl, rfl⟩
  · exact ⟨rfl, rfl, rfl, rfl, rfl⟩

/-- Of the bus side, a graphics tick changes only what its reads and a raise of Fatal change (R170, R272). -/
theorem BusInvariant.tick_keeps (h : tick s = .next t) (hs : P s) : P t := by
  obtain ⟨-, -, ⟨-, rfl⟩ | ⟨-, ⟨-, h⟩ | ⟨-, h⟩ | ⟨-, rfl⟩ | ⟨-, rfl⟩⟩⟩ := tick_next h
  · exact hP.onRaise _ s (by decide) hs
  · exact hP.oamScanTick_keeps h hs
  · exact hP.pixelTransferTick_keeps h hs
  · obtain ⟨tm, st, e⟩ := hBlankTick_frame s
    rw [e]
    exact hP.ofSame s _ ⟨rfl, rfl, rfl, rfl, rfl⟩ hs
  · obtain ⟨tm, e⟩ := vBlankTick_frame s
    rw [e]
    exact hP.ofSame s _ ⟨rfl, rfl, rfl, rfl, rfl⟩ hs

end keeps

/-! The ROM arrays, the overlay flag and the configuration -/

/-- The arrays no bus write reaches (R126). -/
def Arr.readOnly : Arr → Bool
  | .boot => true
  | .rom0 => true
  | .rom1 => true
  | _ => false

/-- No byte write stores to a read-only array (R122, R126). -/
theorem storeCell_readOnly {s : State} {a : Addr} {c : Arr × Nat} (h : s.storeCell a = some c) :
    c.1.readOnly = false := by
  have writable : ∀ r, r ≠ .boot → r ≠ .rom0 → r ≠ .rom1 → cellOf r a = some c → c.1.readOnly = false := by
    intro r h1 h2 h3 hc
    cases r <;> simp [cellOf] at h1 h2 h3 hc <;> subst hc <;> rfl
  have hc := storeCell_some s a c h
  unfold State.storeCell at h
  refine writable (s.region a) ?_ ?_ ?_ hc <;> (intro hr; simp [hr] at h)

theorem writeByte_arr_readOnly (a : Addr) (v : Byte) (s : State) {b : Arr} (hb : b.readOnly = true) :
    (writeByte a v s).mem.arr b = s.mem.arr b := by
  rw [writeByte_mem]
  split
  · rename_i c hc
    refine Storage.arr_setArr_other _ _ fun e => ?_
    rw [e, storeCell_readOnly hc] at hb
    cases hb
  · rfl

theorem effectOf_arr_readOnly (i : Instr) (s : State) {b : Arr} (hb : b.readOnly = true) :
    (effectOf i s).mem.arr b = s.mem.arr b := by
  cases i with
  | rb a => rfl
  | rw a => rfl
  | wb a v => exact writeByte_arr_readOnly a v s hb
  | ww a w => exact (writeByte_arr_readOnly _ _ _ hb).trans (writeByte_arr_readOnly _ _ _ hb)

/-- What only host events change (R23 to R25, R126) is the same. -/
structure SameRoms (s t : State) : Prop where
  cfg : t.cfg = s.cfg
  inBoot : t.inBoot = s.inBoot
  roms : ∀ b : Arr, b.readOnly = true → t.mem.arr b = s.mem.arr b

theorem SameRoms.refl (s : State) : SameRoms s s := ⟨rfl, rfl, fun _ _ => rfl⟩

theorem SameRoms.trans {s t u : State} (h : SameRoms s t) (k : SameRoms t u) : SameRoms s u :=
  ⟨k.cfg.trans h.cfg, k.inBoot.trans h.inBoot, fun b hb => (k.roms b hb).trans (h.roms b hb)⟩

theorem service_sameRoms {s t : State} (h : service s = .next t) : SameRoms s t := by
  have fr := service_frame h
  obtain ⟨-, p, rest, -, he⟩ := service_next h
  refine ⟨fr.cfg, fr.inBoot, fun b hb => ?_⟩
  obtain ⟨-, ⟨-, -, rfl⟩ | ⟨-, -, rfl⟩ | ⟨-, rfl⟩⟩ := exec_next _ _ _ he
  · rw [respond_mem, effectOf_arr_readOnly _ _ hb]
    rfl
  · rfl
  · rfl

theorem busInvariant_sameRoms (s : State) : BusInvariant (SameRoms s) where
  onSubmit _ _ _ _ _ h := h.trans ⟨rfl, rfl, fun _ _ => rfl⟩
  onService _ _ h hs := h.trans (service_sameRoms hs)
  onRaise _ _ _ h := h.trans ⟨rfl, rfl, fun _ _ => rfl⟩
  ofSame _ _ e h := h.trans ⟨e.cfg, e.inBoot, fun _ _ => by rw [e.mem]⟩

/-- With the ROM arrays, the overlay flag and the configuration the same, every clause on their writers holds. -/
theorem SameRoms.no_writer {m : Move} {s t : State} (h : SameRoms s t) :
    t.cfg = s.cfg ∧
    (m ≠ .reset → (∀ b, m ≠ .loadBoot b) → t.mem.boot = s.mem.boot) ∧
    (m ≠ .reset → (∀ b, m ≠ .loadRom b) → t.mem.rom0 = s.mem.rom0 ∧ t.mem.rom1 = s.mem.rom1) ∧
    (m ≠ .reset → (∀ b, m ≠ .setInBoot b) → t.inBoot = s.inBoot) :=
  ⟨h.cfg, fun _ _ => h.roms .boot rfl, fun _ _ => ⟨h.roms .rom0 rfl, h.roms .rom1 rfl⟩, fun _ _ => h.inBoot⟩

/-- Settles O34: the bus moves and the tick reach no read-only array, and each host event writes its own component. -/
theorem romAndConfigWriters : Obligations.RomAndConfigWriters := by
  unfold Obligations.RomAndConfigWriters
  intro m s t h
  have hP := busInvariant_sameRoms s
  have hs := SameRoms.refl s
  cases m with
  | submit p w => exact (hP.submit_keeps h hs).no_writer
  | submitBoth wP wG => exact (hP.submitBoth_keeps h hs).no_writer
  | service => exact (service_sameRoms h).no_writer
  | transact p w => exact (hP.transact_keeps h hs).no_writer
  | tick => exact (hP.tick_keeps h hs).no_writer
  | reset =>
    cases h
    exact ⟨rfl, fun hm => absurd rfl hm, fun hm => absurd rfl hm, fun hm => absurd rfl hm⟩
  | loadBoot b =>
    obtain ⟨-, rfl⟩ := hostEvent_next h
    exact ⟨rfl, fun _ hm => absurd rfl (hm b), fun _ _ => ⟨rfl, rfl⟩, fun _ _ => rfl⟩
  | loadRom b =>
    obtain ⟨-, rfl⟩ := hostEvent_next h
    exact ⟨rfl, fun _ _ => rfl, fun _ hm => absurd rfl (hm b), fun _ _ => rfl⟩
  | setInBoot b =>
    obtain ⟨-, rfl⟩ := hostEvent_next h
    exact ⟨rfl, fun _ _ => rfl, fun _ _ => ⟨rfl, rfl⟩, fun _ hm => absurd rfl (hm b)⟩
  | tileReset =>
    obtain ⟨-, rfl⟩ := hostEvent_next h
    exact SameRoms.no_writer ⟨rfl, rfl, fun _ _ => rfl⟩
  | sever =>
    obtain ⟨-, rfl⟩ := hostEvent_next h
    exact SameRoms.no_writer ⟨rfl, rfl, fun _ _ => rfl⟩

end Sys2Proof.Machine
end
/-! Proofs: the invariants of R34 and the canonical form of the tables, kept by every step -/

section
namespace Sys2Proof.Machine

/-! The bus side -/

/-- The bus side of the invariants: R34 g, h, and the canonical form of the storage and the tile rows. -/
structure State.BusOk (s : State) : Prop where
  arb : s.arb.Ok
  mem : s.mem.wf = true
  ramInit : s.cfg.ramInit.wf = true
  tile : TileRows.wf s.tile = true

/-- The arbiter's invariants, one clause for both ports (R34 g, h). -/
theorem Arbiter.ok_iff (b : Arbiter) :
    b.Ok ↔ b.queue.Nodup ∧ (∀ p, (b.req p).valid = true ↔ p ∈ b.queue) ∧ (b.fatal = false ↔ b.cause = .noCause) := by
  constructor
  · rintro ⟨hn, hP, hG, hf⟩
    refine ⟨hn, fun p => ?_, hf⟩
    cases p
    · exact hP
    · exact hG
  · rintro ⟨hn, hr, hf⟩
    exact ⟨hn, hr .portP, hr .portG, hf⟩

/-- A submit on a port that is not blocked adds it to the queue and makes its latch valid (R141). -/
theorem enqueueRequest_arbOk (p : Port) (w : ReqWord) (s : State) (hv : (s.arb.req p).valid = false)
    (h : s.arb.Ok) : (enqueueRequest p w s).arb.Ok := by
  rw [Arbiter.ok_iff] at *
  obtain ⟨hn, hr, hf⟩ := h
  have hp : p ∉ s.arb.queue := fun hm => by simp [(hr p).mpr hm] at hv
  refine ⟨?_, fun q => ?_, by simpa using hf⟩
  · simpa [List.nodup_append] using ⟨hn, fun q hq e => hp (e ▸ hq)⟩
  · rw [enqueueRequest_req]
    split
    · simp_all [latchOf]
    · simp_all

/-- The served port's latch is no longer valid, the other one is as it was, whichever way an operation ends (R144, R145,
R156). -/
theorem exec_req_valid {i : Instr} {s t : State} (h : exec i s = .next t) (q : Port) :
    (t.arb.req q).valid = if q = s.arb.port then false else (s.arb.req q).valid := by
  have released : ∀ r u, ((respond s.arb.port r u).arb.req q).valid =
      if q = s.arb.port then false else (u.arb.req q).valid := by
    intro r u
    rw [respond_req]
    split <;> rfl
  obtain ⟨-, ⟨-, -, rfl⟩ | ⟨-, -, rfl⟩ | ⟨-, rfl⟩⟩ := exec_next _ _ _ h
  · rw [released, effectOf_arb]
  · have e : ∀ u, (raiseFatal .malformedRequest u).arb.req q = u.arb.req q := fun u => by cases q <;> rfl
    rw [failMalformed, e, released]
  · have e : ∀ u, (raiseFatal .channelSevered u).arb.req q = u.arb.req q := fun u => by cases q <;> rfl
    rw [failSevered, e, Arbiter.req_release]
    split <;> rfl

/-- However an operation ends, `fatal` is 0 exactly when the cause is NONE (R34 h). -/
theorem exec_fatal_iff_cause {i : Instr} {s t : State} (h : exec i s = .next t)
    (hs : s.arb.fatal = false ↔ s.arb.cause = .noCause) : t.arb.fatal = false ↔ t.arb.cause = .noCause := by
  obtain ⟨-, ⟨-, -, rfl⟩ | ⟨-, -, rfl⟩ | ⟨-, rfl⟩⟩ := exec_next _ _ _ h
  · simpa using hs
  · simp [failMalformed]
  · simp [failSevered]

theorem exec_mem_wf {i : Instr} {s t : State} (h : exec i s = .next t) (hs : s.mem.wf = true) : t.mem.wf = true := by
  obtain ⟨-, ⟨-, -, rfl⟩ | ⟨-, -, rfl⟩ | ⟨-, rfl⟩⟩ := exec_next _ _ _ h
  · exact effectOf_mem_wf i s hs
  · exact hs
  · exact hs

theorem exec_tile_wf {i : Instr} {s t : State} (h : exec i s = .next t) (hs : TileRows.wf s.tile = true) :
    TileRows.wf t.tile = true := by
  obtain ⟨-, ⟨-, -, rfl⟩ | ⟨-, -, rfl⟩ | ⟨-, rfl⟩⟩ := exec_next _ _ _ h
  · exact effectOf_tile_wf i s hs
  · exact hs
  · exact hs

/-- A service takes the port at the head from the queue and clears its latch (R144). -/
theorem service_arbOk {s t : State} (h : service s = .next t) (hs : s.arb.Ok) : t.arb.Ok := by
  obtain ⟨-, p, rest, hq, he⟩ := service_next h
  obtain ⟨-, -, -, -, -, -, -, -, -, hqueue, -⟩ := exec_frame _ _ _ he
  rw [Arbiter.ok_iff] at *
  obtain ⟨hn, hr, hf⟩ := hs
  rw [hq, List.nodup_cons] at hn
  refine ⟨?_, fun q => ?_, exec_fatal_iff_cause he hf⟩
  · rw [hqueue]
    exact hn.2
  · have hrq := hr q
    rw [hq] at hrq
    rw [exec_req_valid he, hqueue, takeHead_req, takeHead_arb]
    by_cases hqp : q = p
    · simpa [hqp] using hn.1
    · simpa [hqp] using hrq

theorem busInvariant_busOk : BusInvariant State.BusOk where
  onSubmit p w s _ hv h := ⟨enqueueRequest_arbOk p w s hv h.arb, h.mem, h.ramInit, h.tile⟩
  onService s t h hs := by
    obtain ⟨-, p, rest, -, he⟩ := service_next hs
    refine ⟨service_arbOk hs h.arb, exec_mem_wf he h.mem, ?_, exec_tile_wf he h.tile⟩
    rw [(service_frame hs).cfg]
    exact h.ramInit
  onRaise c s hc h := by
    obtain ⟨hn, hP, hG, -⟩ := h.arb
    exact ⟨⟨hn, hP, hG, by simp [hc]⟩, h.mem, h.ramInit, h.tile⟩
  ofSame s t e h := ⟨e.arb ▸ h.arb, e.mem ▸ h.mem, e.cfg ▸ h.ramInit, e.tile ▸ h.tile⟩

/-! The display side -/

/-- A pipeline that meets R34 d, e and whose line is in canonical form. -/
structure Pipeline.Wf (q : Pipeline) : Prop where
  ok : q.Ok
  linebuf : Line.wf q.linebuf = true

/-- The display side of the invariants: R34 a to f, and the canonical form of the pixel lines. -/
structure State.DisplayOk (s : State) : Prop where
  timer : s.timer.Ok
  pipe : s.pipe.Wf
  sprites : s.sprites.Ok
  fb : ∀ l : Fin 144, Line.wf s.fb[l] = true

theorem State.inv_iff (s : State) : s.Inv ↔ s.BusOk ∧ s.DisplayOk := by
  constructor
  · rintro ⟨ht, hp, hs, ha, hm, hr, hti, hl, hf⟩
    exact ⟨⟨ha, hm, hr, hti⟩, ⟨ht, ⟨hp, hl⟩, hs, hf⟩⟩
  · rintro ⟨hb, hd⟩
    exact ⟨hd.timer, hd.pipe.ok, hd.sprites, hb.arb, hb.mem, hb.ramInit, hb.tile, hd.pipe.linebuf, hd.fb⟩

/-- The components of the display side are the same. -/
structure SameDisplay (s t : State) : Prop where
  timer : t.timer = s.timer
  pipe : t.pipe = s.pipe
  sprites : t.sprites = s.sprites
  fb : t.fb = s.fb

theorem SameDisplay.trans {s t u : State} (h : SameDisplay s t) (k : SameDisplay t u) : SameDisplay s u :=
  ⟨k.timer.trans h.timer, k.pipe.trans h.pipe, k.sprites.trans h.sprites, k.fb.trans h.fb⟩

theorem SameOutside.sameDisplay {s t : State} (h : SameOutside s t) : SameDisplay s t :=
  ⟨h.timer, h.pipe, h.sprites, h.fb⟩

theorem SameDisplay.displayOk {s t : State} (e : SameDisplay s t) (h : s.DisplayOk) : t.DisplayOk :=
  ⟨e.timer ▸ h.timer, e.pipe ▸ h.pipe, e.sprites ▸ h.sprites, e.fb ▸ h.fb⟩

/-- Whether the listed sprites are visible depends on the timer, the list and the records only. -/
theorem State.SelectedVisible.of_same {s t : State} (h : s.SelectedVisible) (ht : t.timer = s.timer)
    (hv : t.sprites.vis = s.sprites.vis) (hr : t.sprites.recs = s.sprites.recs) : t.SelectedVisible := by
  unfold State.SelectedVisible
  rw [ht, hv, hr]
  exact h

/-! The pipeline -/

/-- The two pipelines have the same FIFO level, the same valid slots, the same column and the same line. -/
structure SameLevels (q r : Pipeline) : Prop where
  valid : ∀ k : Fin 16, r.fifo[k].valid = q.fifo[k].valid
  count : r.count = q.count
  outCol : r.outCol = q.outCol
  linebuf : r.linebuf = q.linebuf

theorem SameLevels.wf {q r : Pipeline} (e : SameLevels q r) (h : q.Wf) : r.Wf := by
  obtain ⟨hv, hc, ho⟩ := h.ok
  exact ⟨⟨fun k => by rw [e.valid, e.count, hv], e.count ▸ hc, e.outCol ▸ ho⟩, e.linebuf ▸ h.linebuf⟩

theorem SameButFetch.sameLevels {s t : State} (h : SameButFetch s t) : SameLevels s.pipe t.pipe :=
  ⟨fun k => by rw [h.fifo], h.count, h.outCol, h.linebuf⟩

theorem SameButSlots.sameLevels {s t : State} (h : SameButSlots s t) : SameLevels s.pipe t.pipe :=
  have e := h.pipe
  ⟨h.valid, by rw [← e], by rw [← e], by rw [← e]⟩

theorem overlayStage_sameLevels {s t : State} (h : overlayStage s = .next t) : SameLevels s.pipe t.pipe := by
  obtain ⟨-, rfl⟩ | ⟨n, u, -, hu, ⟨-, rfl⟩ | ⟨-, rfl⟩⟩ := overlayStage_next h
  · exact ⟨fun _ => rfl, rfl, rfl, rfl⟩
  · exact (overlayFrom_frame _ hu).sameLevels
  · exact (overlayFrom_frame _ hu).sameLevels

/-- After a line reset no slot is valid and the line is blank (R231). -/
theorem lineResetPipe_wf (q : Pipeline) : (lineResetPipe q).Wf := by
  refine ⟨⟨fun k => ?_, Nat.zero_le 16, Nat.zero_le lineW⟩, rfl⟩
  obtain ⟨k, hk⟩ := k
  interval_cases k <;> rfl

/-- The enqueue stage adds eight valid slots behind the valid ones (R237). -/
theorem enqueuePipe_wf (q : Pipeline) (h : q.Wf) : (enqueuePipe q).Wf := by
  unfold enqueuePipe
  split
  · rename_i hdue
    obtain ⟨hv, hc, ho⟩ := h.ok
    have hroom : q.count.toNat ≤ 8 := hdue.2
    have hcount : (q.count + 8).toNat = q.count.toNat + 8 := by bv_omega
    refine ⟨⟨fun k => ?_, by simp only [hcount]; omega, ho⟩, h.linebuf⟩
    simp only [fifoAppend_get, hcount]
    split
    · simp [bgSlot]
      omega
    · rw [hv]
      congr 1
      simp only [eq_iff_iff]
      omega
  · exact h

/-- The push stage takes the first of more than eight valid slots and fills one more column of the line (R243). -/
theorem pushPipe_wf (q : Pipeline) (hc : 8 < q.count.toNat) (ho : q.outCol.toNat < lineW) (h : q.Wf) :
    (pushPipe q).Wf := by
  obtain ⟨hv, hc16, -⟩ := h.ok
  have hcol160 : q.outCol.toNat < 160 := ho
  have hcount : (q.count - 1).toNat = q.count.toNat - 1 := by bv_omega
  have hcol : (q.outCol + 1).toNat = q.outCol.toNat + 1 := by bv_omega
  refine ⟨⟨fun k => ?_, ?_, ?_⟩, Sparse.canon_set _ _ _ _ _ ho h.linebuf⟩
  · simp only [pushPipe, fifoShift_get, hcount]
    split
    · rename_i hk
      rw [show q.fifo[k.val + 1].valid = decide (k.val + 1 < q.count.toNat) from hv ⟨k.val + 1, hk⟩]
      congr 1
      simp only [eq_iff_iff]
      omega
    · simp [Slot.invalid]
      omega
  · simp only [pushPipe, hcount]
    omega
  · simp only [pushPipe, hcol]
    omega

theorem emitStage_pipe_wf {s t : State} (h : emitStage s = .next t) (ho : s.pipe.outCol.toNat < lineW)
    (hs : s.pipe.Wf) : t.pipe.Wf := by
  unfold emitStage at h
  split at h
  · rename_i hc
    obtain ⟨h1, -⟩ | ⟨u, h1, -, h2⟩ := thenRun_next h
    · exact (overlayStage_sameLevels h1).wf hs
    · cases h2
      have e := overlayStage_sameLevels h1
      exact pushPipe_wf u.pipe (e.count ▸ hc) (e.outCol ▸ ho) (e.wf hs)
  · cases h
    exact hs

@[simp] theorem enqueuePipe_outCol (q : Pipeline) : (enqueuePipe q).outCol = q.outCol := by
  unfold enqueuePipe
  split <;> rfl

theorem dot_pipe_wf {s t : State} (h : dot s = .next t) (hs : s.pipe.Wf) : t.pipe.Wf := by
  unfold dot at h
  split at h
  · cases h
    exact hs
  · rename_i ho
    obtain ⟨h1, -⟩ | ⟨u, h1, -, h2⟩ := thenRun_next h
    · exact (fetchStage_frame h1).sameLevels.wf hs
    · have e := (fetchStage_frame h1).sameLevels
      refine emitStage_pipe_wf h2 ?_ (enqueuePipe_wf u.pipe (e.wf hs))
      rw [enqueueStage_pipe, enqueuePipe_outCol, e.outCol]
      omega

/-! The timer -/

/-- A mode's budget fits the 9-bit counter (R27). -/
theorem modeBudget_bounds (m : Mode) : 0 < modeBudget m ∧ modeBudget m < 512 := by
  cases m <;> decide

/-- Below the budget the counter goes on by one (R170). -/
theorem countOn_timer_ok {b : Nat} {s : State} (hb : modeBudget s.timer.mode = b) (hr : ¬ budgetReached b s = true)
    (h : s.timer.Ok) : (countOn s).timer.Ok := by
  obtain ⟨hl, hc, hm⟩ := h
  have hlt := (modeBudget_bounds s.timer.mode).2
  simp only [budgetReached, decide_eq_true_eq] at hr
  refine ⟨hl, ?_, hm⟩
  have hcount : (s.timer.counter + 1).toNat = s.timer.counter.toNat + 1 := by bv_omega
  simp only [countOn_timer, hcount]
  omega

/-- A mode entered on a line that belongs to it (R34 a, b, c). -/
theorem enterMode_timer_ok (m : Mode) (s : State) (hl : s.timer.line.toNat ≤ lastLine)
    (hm : m = .vBlank ↔ nVisible ≤ s.timer.line.toNat) : (enterMode m s).timer.Ok :=
  ⟨hl, (modeBudget_bounds m).1, hm⟩

/-- The line number goes on by one without a wrap (R174, R175). -/
theorem line_succ_toNat {s : State} (h : s.timer.line.toNat ≤ lastLine) :
    (s.timer.line + 1).toNat = s.timer.line.toNat + 1 := by
  have hl : s.timer.line.toNat ≤ 153 := h
  bv_omega

/-- A mode entered on a new line that belongs to it (R174, R175). -/
theorem enterMode_setLine_timer_ok (m : Mode) (n : BitVec 8) (s : State) (hl : n.toNat ≤ 153)
    (hm : m = .vBlank ↔ 144 ≤ n.toNat) : (enterMode m (setLine n s)).timer.Ok := enterMode_timer_ok m (setLine n s) hl hm

theorem hBlankTick_timer_ok {s : State} (hmode : s.timer.mode = .hBlank) (h : s.timer.Ok) : (hBlankTick s).timer.Ok := by
  unfold hBlankTick
  split
  · obtain ⟨hl, -, hvis⟩ := h
    have hline := line_succ_toNat hl
    simp only [hmode, nVisible, reduceCtorEq, false_iff] at hvis
    simp only [nVisible]
    split
    · exact enterMode_setLine_timer_ok .vBlank _ s (by omega) (iff_of_true rfl (by omega))
    · exact enterMode_setLine_timer_ok .oamScan _ s (by omega) (iff_of_false (by decide) (by omega))
  · exact countOn_timer_ok (b := tHblank) (by rw [hmode]; rfl) ‹_› h

theorem vBlankTick_timer_ok {s : State} (hmode : s.timer.mode = .vBlank) (h : s.timer.Ok) : (vBlankTick s).timer.Ok := by
  unfold vBlankTick
  split
  · obtain ⟨hl, -, hm⟩ := h
    have hline := line_succ_toNat hl
    have hvis : 144 ≤ s.timer.line.toNat := hm.mp hmode
    simp only [lastLine]
    split
    · exact enterMode_setLine_timer_ok .oamScan 0 s (by decide) (by decide)
    · exact enterMode_setLine_timer_ok .vBlank _ s (by omega) (iff_of_true rfl (by omega))
  · exact countOn_timer_ok (b := tLine) (by rw [hmode]; rfl) ‹_› h

/-! The graphics tick -/

@[simp] theorem loadScanned_vis (c : Nat) (w : Word) (s : State) : (loadScanned c w s).sprites.vis = s.sprites.vis := by
  unfold loadScanned
  split <;> rfl

/-- What a tick of OAMScan leaves of the display side before its end: all but the records and the marks, and on the first
tick of a line an empty list (R172, R212, R213). -/
structure SameButScan (s t : State) : Prop where
  timer : t.timer = s.timer
  pipe : t.pipe = s.pipe
  fb : t.fb = s.fb
  vis : t.sprites.vis = s.sprites.vis ∨ t.sprites.vis = []

theorem SameButScan.displayOk {s t : State} (e : SameButScan s t) (h : s.DisplayOk) : t.DisplayOk := by
  refine ⟨e.timer ▸ h.timer, e.pipe ▸ h.pipe, ?_, e.fb ▸ h.fb⟩
  unfold SpriteTable.Ok
  obtain hv | hv := e.vis
  · rw [hv]
    exact h.sprites
  · rw [hv]
    exact ⟨List.Pairwise.nil, Nat.zero_le _⟩

theorem scanStep_frame {c : Nat} {s t : State} (h : scanStep c s = .next t) :
    t.timer = s.timer ∧ t.pipe = s.pipe ∧ t.fb = s.fb ∧ t.sprites.vis = s.sprites.vis := by
  unfold scanStep at h
  obtain ⟨h1, -⟩ | ⟨u, h1, -, h2⟩ := thenRun_next h
  · have fr := transact_frame h1
    exact ⟨fr.timer, fr.pipe, fr.fb, by rw [fr.sprites]⟩
  · have fr := transact_frame h1
    cases h2
    simp [fr.timer, fr.pipe, fr.fb, fr.sprites]

/-- Everything a tick of OAMScan can do: a scan step that is fatal, the end of the mode, or the counter one on (R172). -/
theorem oamScanTick_next {s t : State} (h : oamScanTick s = .next t) :
    ∃ u, SameButScan s u ∧
      (t = u ∨ t = endOamScan u ∨ (¬ budgetReached tOam u = true ∧ t = countOn u)) := by
  have started : SameButScan s (if s.timer.counter = 0 then newLine s else s) := by
    split
    · exact ⟨rfl, rfl, rfl, .inr rfl⟩
    · exact ⟨rfl, rfl, rfl, .inl rfl⟩
  have scanned : ∀ u, scanStep s.timer.counter.toNat (if s.timer.counter = 0 then newLine s else s) = .next u →
      SameButScan s u := by
    intro u hu
    obtain ⟨ht, hp, hf, hv⟩ := scanStep_frame hu
    exact ⟨ht.trans started.timer, hp.trans started.pipe, hf.trans started.fb, hv ▸ started.vis⟩
  unfold oamScanTick at h
  obtain ⟨h1, -⟩ | ⟨u, h1, -, h2⟩ := thenRun_next h
  · exact ⟨t, scanned t h1, .inl rfl⟩
  · refine ⟨u, scanned u h1, .inr ?_⟩
    cases h2
    split
    · exact .inl rfl
    · exact .inr ⟨‹_›, rfl⟩

/-- Everything a tick of PixelTransfer can do: a dot that is fatal, the end of the mode, or the counter one on (R173). -/
theorem pixelTransferTick_next {s t : State} (h : pixelTransferTick s = .next t) :
    ∃ u, dot s = .next u ∧
      (t = u ∨ t = enterMode .hBlank (emitLine u) ∨ (¬ budgetReached tXfer u = true ∧ t = countOn u)) := by
  unfold pixelTransferTick at h
  obtain ⟨h1, -⟩ | ⟨u, h1, -, h2⟩ := thenRun_next h
  · exact ⟨t, h1, .inl rfl⟩
  · refine ⟨u, h1, .inr ?_⟩
    cases h2
    split
    · exact .inl rfl
    · exact .inr ⟨‹_›, rfl⟩

theorem dot_displayOk {s t : State} (h : dot s = .next t) (hs : s.DisplayOk) : t.DisplayOk := by
  have fr := dot_frame h
  refine ⟨fr.timer ▸ hs.timer, dot_pipe_wf h hs.pipe, ?_, fr.fb ▸ hs.fb⟩
  unfold SpriteTable.Ok
  rw [fr.vis]
  exact hs.sprites

/-- The selected list and the reset pipeline meet the invariants on the line the scan was for (R172, R214, R231). -/
theorem endOamScan_displayOk {s : State} (hmode : s.timer.mode = .oamScan) (h : s.DisplayOk) :
    (endOamScan s).DisplayOk := by
  obtain ⟨hl, -, hm⟩ := h.timer
  rw [hmode] at hm
  exact ⟨enterMode_timer_ok .pixelTransfer (lineReset _) hl ⟨fun e => (by cases e), fun e => (by cases hm.mpr e)⟩,
    lineResetPipe_wf s.pipe, scanline_ok s.sprites s.timer.line.toNat, h.fb⟩

/-- The finished line goes into the frame buffer in canonical form, and HBlank follows on the same line (R173, R178). -/
theorem endPixelTransfer_displayOk {s : State} (hmode : s.timer.mode = .pixelTransfer) (h : s.DisplayOk) :
    (enterMode .hBlank (emitLine s)).DisplayOk := by
  obtain ⟨hl, -, hm⟩ := h.timer
  rw [hmode] at hm
  refine ⟨enterMode_timer_ok .hBlank (emitLine s) hl ⟨fun e => (by cases e), fun e => (by cases hm.mpr e)⟩,
    h.pipe, h.sprites, fun l => ?_⟩
  show Line.wf (s.fb.setIfInBounds s.timer.line.toNat s.pipe.linebuf)[l] = true
  simp only [Fin.getElem_fin, Vector.getElem_setIfInBounds]
  split
  · exact h.pipe.linebuf
  · exact h.fb l

theorem countOn_displayOk {b : Nat} {s : State} (hb : modeBudget s.timer.mode = b) (hr : ¬ budgetReached b s = true)
    (h : s.DisplayOk) : (countOn s).DisplayOk := ⟨countOn_timer_ok hb hr h.timer, h.pipe, h.sprites, h.fb⟩

theorem hBlankTick_displayOk {s : State} (hmode : s.timer.mode = .hBlank) (h : s.DisplayOk) :
    (hBlankTick s).DisplayOk := by
  have ht := hBlankTick_timer_ok hmode h.timer
  obtain ⟨tm, st, e⟩ := hBlankTick_frame s
  rw [e] at ht ⊢
  exact ⟨ht, h.pipe, h.sprites, h.fb⟩

theorem vBlankTick_displayOk {s : State} (hmode : s.timer.mode = .vBlank) (h : s.DisplayOk) :
    (vBlankTick s).DisplayOk := by
  have ht := vBlankTick_timer_ok hmode h.timer
  obtain ⟨tm, e⟩ := vBlankTick_frame s
  rw [e] at ht ⊢
  exact ⟨ht, h.pipe, h.sprites, h.fb⟩

theorem tick_displayOk {s t : State} (h : tick s = .next t) (hs : s.DisplayOk) : t.DisplayOk := by
  obtain ⟨-, -, ⟨-, rfl⟩ | ⟨-, ⟨hmode, h⟩ | ⟨hmode, h⟩ | ⟨hmode, rfl⟩ | ⟨hmode, rfl⟩⟩⟩ := tick_next h
  · exact ⟨hs.timer, hs.pipe, hs.sprites, hs.fb⟩
  · obtain ⟨u, e, ht⟩ := oamScanTick_next h
    have hu := e.displayOk hs
    have humode : u.timer.mode = .oamScan := e.timer ▸ hmode
    obtain rfl | rfl | ⟨hr, rfl⟩ := ht
    · exact hu
    · exact endOamScan_displayOk humode hu
    · exact countOn_displayOk (by rw [humode]; rfl) hr hu
  · obtain ⟨u, hd, ht⟩ := pixelTransferTick_next h
    have hu := dot_displayOk hd hs
    have humode : u.timer.mode = .pixelTransfer := (dot_frame hd).timer ▸ hmode
    obtain rfl | rfl | ⟨hr, rfl⟩ := ht
    · exact hu
    · exact endPixelTransfer_displayOk humode hu
    · exact countOn_displayOk (by rw [humode]; rfl) hr hu
  · exact hBlankTick_displayOk hmode hs
  · exact vBlankTick_displayOk hmode hs

/-! The listed sprites -/

/-- In a mode other than PixelTransfer the list is not asked for. -/
theorem State.selectedVisible_of_mode {s : State} (h : s.timer.mode ≠ .pixelTransfer) : s.SelectedVisible :=
  fun hm => absurd hm h

theorem hBlankTick_mode {s : State} (hmode : s.timer.mode = .hBlank) : (hBlankTick s).timer.mode ≠ .pixelTransfer := by
  unfold hBlankTick
  split
  · simp only
    split
    · simp [strobe]
    · simp
  · simp [hmode]

theorem vBlankTick_mode {s : State} (hmode : s.timer.mode = .vBlank) : (vBlankTick s).timer.mode ≠ .pixelTransfer := by
  unfold vBlankTick
  split
  · simp only
    split
    · simp
    · simp
  · simp [hmode]

/-- The end of OAMScan lists visible sprites; the ticks of PixelTransfer change neither list nor line (R172, R214). -/
theorem tick_selectedVisible {s t : State} (h : tick s = .next t) (hs : s.SelectedVisible) : t.SelectedVisible := by
  obtain ⟨-, -, ⟨-, rfl⟩ | ⟨-, ⟨hmode, h⟩ | ⟨hmode, h⟩ | ⟨hmode, rfl⟩ | ⟨hmode, rfl⟩⟩⟩ := tick_next h
  · exact hs
  · obtain ⟨u, e, ht⟩ := oamScanTick_next h
    have humode : u.timer.mode ≠ .pixelTransfer := by simp [e.timer, hmode]
    obtain rfl | rfl | ⟨-, rfl⟩ := ht
    · exact State.selectedVisible_of_mode humode
    · exact fun _ n hn => (scanline_visible u.sprites u.timer.line.toNat n hn).1
    · exact State.selectedVisible_of_mode humode
  · obtain ⟨u, hd, ht⟩ := pixelTransferTick_next h
    have fr := dot_frame hd
    have hu : u.SelectedVisible := hs.of_same fr.timer fr.vis fr.recs
    obtain rfl | rfl | ⟨-, rfl⟩ := ht
    · exact hu
    · exact State.selectedVisible_of_mode (by simp)
    · exact hu
  · exact State.selectedVisible_of_mode (hBlankTick_mode hmode)
  · exact State.selectedVisible_of_mode (vBlankTick_mode hmode)

/-! Reset, the moves and the step -/

/-- The state after reset meets the invariants when the configured initial content is in canonical form (R35, R320). -/
theorem resetWith_busOk (c : Config) (h : c.ramInit.wf = true) : (State.resetWith c).BusOk :=
  ⟨(by decide : ({} : Arbiter).Ok), h, h, rfl⟩

theorem resetWith_displayOk (c : Config) : (State.resetWith c).DisplayOk where
  timer := (by decide : ({} : Timer).Ok)
  pipe := ⟨(by decide : ({} : Pipeline).Ok), rfl⟩
  sprites := (by decide : ({} : SpriteTable).Ok)
  fb l := by simp [State.resetWith]; rfl

theorem resetWith_selectedVisible (c : Config) : (State.resetWith c).SelectedVisible :=
  State.selectedVisible_of_mode (by simp [State.resetWith])

theorem applyMove_busOk {m : Move} {s t : State} (h : applyMove m s = .next t) (hs : s.BusOk) : t.BusOk := by
  have hP := busInvariant_busOk
  cases m with
  | submit p w => exact hP.submit_keeps h hs
  | submitBoth wP wG => exact hP.submitBoth_keeps h hs
  | service => exact hP.onService s t hs h
  | transact p w => exact hP.transact_keeps h hs
  | tick => exact hP.tick_keeps h hs
  | reset =>
    cases h
    exact hP.ofSame (State.resetWith s.cfg) _ ⟨rfl, rfl, rfl, rfl, rfl⟩ (resetWith_busOk s.cfg hs.ramInit)
  | loadBoot b =>
    obtain ⟨-, rfl⟩ := hostEvent_next h
    exact ⟨hs.arb, Storage.wf_load _ _ _ _ (by simp [arrSize]) hs.mem, hs.ramInit, hs.tile⟩
  | loadRom b =>
    obtain ⟨-, rfl⟩ := hostEvent_next h
    refine ⟨hs.arb, ?_, hs.ramInit, hs.tile⟩
    exact Storage.wf_load _ _ _ _ (by simp [arrSize]) (Storage.wf_load _ _ _ _ (by simp [arrSize]) hs.mem)
  | setInBoot b =>
    obtain ⟨-, rfl⟩ := hostEvent_next h
    exact ⟨hs.arb, hs.mem, hs.ramInit, hs.tile⟩
  | tileReset =>
    obtain ⟨-, rfl⟩ := hostEvent_next h
    exact ⟨hs.arb, hs.mem, hs.ramInit, rfl⟩
  | sever =>
    obtain ⟨-, rfl⟩ := hostEvent_next h
    exact ⟨hs.arb, hs.mem, hs.ramInit, hs.tile⟩

/-- No move but a tick and a reset touches the display side (R158, R177). -/
theorem applyMove_sameDisplay {m : Move} {s t : State} (htick : m ≠ .tick) (hreset : m ≠ .reset)
    (h : applyMove m s = .next t) : SameDisplay s t := by
  have same : SameDisplay s s := ⟨rfl, rfl, rfl, rfl⟩
  cases m with
  | submit p w =>
    obtain ⟨-, -, rfl⟩ := submit_next h
    exact ⟨rfl, rfl, rfl, rfl⟩
  | submitBoth wP wG =>
    exact submitBoth_keeps (P := SameDisplay s) (fun _ _ _ _ _ hu => hu.trans ⟨rfl, rfl, rfl, rfl⟩)
      (fun _ hu => hu.trans ⟨rfl, rfl, rfl, rfl⟩) h same
  | service => exact (service_frame h).sameDisplay
  | transact p w => exact (transact_frame h).sameDisplay
  | tick => exact absurd rfl htick
  | reset => exact absurd rfl hreset
  | loadBoot b | loadRom b | setInBoot b | tileReset | sever =>
    obtain ⟨-, rfl⟩ := hostEvent_next h
    exact ⟨rfl, rfl, rfl, rfl⟩

theorem applyMove_displayOk {m : Move} {s t : State} (h : applyMove m s = .next t) (hs : s.DisplayOk) :
    t.DisplayOk := by
  by_cases htick : m = .tick
  · subst htick
    exact tick_displayOk h hs
  · by_cases hreset : m = .reset
    · subst hreset
      cases h
      exact SameDisplay.displayOk (s := State.resetWith s.cfg) ⟨rfl, rfl, rfl, rfl⟩ (resetWith_displayOk s.cfg)
    · exact (applyMove_sameDisplay htick hreset h).displayOk hs

theorem applyMove_selectedVisible {m : Move} {s t : State} (h : applyMove m s = .next t) (hs : s.SelectedVisible) :
    t.SelectedVisible := by
  by_cases htick : m = .tick
  · subst htick
    exact tick_selectedVisible h hs
  · by_cases hreset : m = .reset
    · subst hreset
      cases h
      exact (resetWith_selectedVisible s.cfg).of_same rfl rfl rfl
    · have e := applyMove_sameDisplay htick hreset h
      exact hs.of_same e.timer (by rw [e.sprites]) (by rw [e.sprites])

/-- The start of a step clears the replies and takes a move or a draw, and touches nothing else (R8, R270). -/
theorem nextMove_frame (s : State) : ∃ ms d, (nextMove s).2 = { beginStep s with moves := ms, draws := d } := by
  unfold nextMove
  split
  · exact ⟨_, _, rfl⟩
  · exact ⟨_, _, rfl⟩

theorem nextMove_inv {s : State} (h : s.Inv) : (nextMove s).2.Inv := by
  obtain ⟨ms, d, e⟩ := nextMove_frame s
  rw [e]
  exact h

theorem nextMove_selectedVisible {s : State} (h : s.SelectedVisible) : (nextMove s).2.SelectedVisible := by
  obtain ⟨ms, d, e⟩ := nextMove_frame s
  rw [e]
  exact h

theorem applyMove_inv {m : Move} {s t : State} (h : applyMove m s = .next t) (hs : s.Inv) : t.Inv := by
  rw [State.inv_iff] at *
  exact ⟨applyMove_busOk h hs.1, applyMove_displayOk h hs.2⟩

/-- Settles O37: the bus side and the display side of the invariants are kept by every move, from the state in which the
step begins. -/
theorem stepKeepsInvariants : Obligations.StepKeepsInvariants := by
  unfold Obligations.StepKeepsInvariants
  intro s t hs h
  have hmove : applyMove (nextMove s).1 (nextMove s).2 = .next t := h
  exact ⟨applyMove_inv hmove (nextMove_inv hs), fun hv => applyMove_selectedVisible hmove (nextMove_selectedVisible hv)⟩

/-- Settles O60: the reset state of the default configuration is one with a canonical, empty initial content. -/
theorem resetStateMeetsInvariants : Obligations.ResetStateMeetsInvariants := by
  unfold Obligations.ResetStateMeetsInvariants
  have hinv : State.reset.Inv :=
    (State.inv_iff _).mpr ⟨resetWith_busOk {} State.reset_mem_wf, resetWith_displayOk {}⟩
  have hvis : State.reset.SelectedVisible := resetWith_selectedVisible {}
  exact ⟨hinv, hvis, ⟨rfl, rfl, rfl, hinv, hvis⟩, rfl, fun b _ => by cases b <;> rfl⟩

end Sys2Proof.Machine
end

/-! Proofs: the address map and the byte and word accesses (R61, R62, R121 to R127) -/

section
namespace Sys2Proof.Machine

/-! The decode ladder -/

/-- The low 13 bits of an address are its remainder by the size of a large array (R61). -/
theorem toNat_and_0x1FFF (a : Addr) : (a &&& 0x1FFF#16).toNat = a.toNat % 0x2000 := by
  rw [BitVec.toNat_and]
  exact Nat.and_two_pow_sub_one_eq_mod a.toNat 13

/-- The low 7 bits of an address are its remainder by the size of zero-page RAM (R61). -/
theorem toNat_and_0x7F (a : Addr) : (a &&& 0x7F#16).toNat = a.toNat % 0x80 := by
  rw [BitVec.toNat_and]
  exact Nat.and_two_pow_sub_one_eq_mod a.toNat 7

/-- Settles O6: the region of each range, and the cell that region gives the address. -/
theorem decodeLadder : Obligations.DecodeLadder := by
  unfold Obligations.DecodeLadder
  intro b a
  have row : ∀ {r c}, regionOf b a = r → cellOf r a = c → regionOf b a = r ∧ cellOf (regionOf b a) a = c := by
    rintro r c rfl hc
    exact ⟨rfl, hc⟩
  simp only [toNat_and_0x1FFF, toNat_and_0x7F]
  refine ⟨?_, fun h hb => row (regionOf_rom0 b a h hb) rfl, fun h1 h2 => row (regionOf_rom1 b a h1 h2) rfl,
    fun h1 h2 => row (regionOf_video b a h1 h2) rfl, fun h1 h2 => row (regionOf_externalRam b a h1 h2) rfl,
    fun h1 h2 => row (regionOf_workRam b a h1 h2) rfl, fun h1 h2 => row (regionOf_workShadow b a h1 h2) rfl,
    fun h1 h2 => row (regionOf_spriteMemory b a h1 h2) rfl, fun h1 h2 => row (regionOf_zeroSink b a h1 h2) rfl,
    fun h1 h2 => row (regionOf_ioSink b a h1 h2) rfl, fun h => row (regionOf_zeroPage b a h) rfl, cellOf_lt b a⟩
  rintro h rfl
  exact row (regionOf_boot a h) rfl

/-! Reads and writes through the cell an address stores to -/

/-- The cell a write stores to, from the region of its address, outside OAM (R122). -/
theorem storeCell_of_region {s : State} {a : Addr} {r : Region} (hr : s.region a = r)
    (hw : r ≠ .boot ∧ r ≠ .rom0 ∧ r ≠ .rom1 ∧ r ≠ .spriteMemory) : s.storeCell a = cellOf r a := by
  subst hr
  obtain ⟨h1, h2, h3, h4⟩ := hw
  unfold State.storeCell
  split
  · exact absurd ‹_› h1
  · exact absurd ‹_› h2
  · exact absurd ‹_› h3
  · exact absurd ‹_› h4
  · rfl

/-- OAM is stored to only while it is not locked (R70, R122). -/
theorem storeCell_spriteMemory {s : State} {a : Addr} (hr : s.region a = .spriteMemory) :
    s.storeCell a = if s.oamLocked then none else cellOf .spriteMemory a := by
  simp [State.storeCell, hr]

/-- An address of video memory stores to the cell at its offset (R61, R122). -/
theorem storeCell_video {s : State} {a : Addr} {i : Nat} (ha : a.toNat = 0x8000 + i) (hi : i < 0x2000) :
    s.storeCell a = some (.vram, i) := by
  rw [storeCell_of_region (regionOf_video _ a (by omega) (by omega)) (by decide)]
  simp only [cellOf, ha, Option.some.injEq, Prod.mk.injEq, true_and]
  omega

/-- A byte read at an address a write stores to gives the byte of that cell, by either port (R121, R122, R127). -/
theorem readByte_of_storeCell {s : State} {a : Addr} {c : Arr × Nat} (p : Port) (h : s.storeCell a = some c) :
    readByte s p a = (s.mem.read c.1 c.2, false) := by
  have hc := storeCell_some s a c h
  have unlocked : ¬ (s.region a = .spriteMemory ∧ s.oamLocked = true ∧ p = .portP) := by
    rintro ⟨hr, hl, -⟩
    simp [storeCell_spriteMemory hr, hl] at h
  unfold readByte
  split
  · rename_i hr
    rw [hr] at hc
    cases hc
  · rename_i hr
    rw [hr] at hc
    cases hc
  · rw [if_neg unlocked, hc]

/-- A writable address has a cell that a write stores to (R127). -/
theorem storeCell_of_writable {s : State} {a : Addr} (h : s.writable a) : ∃ c, s.storeCell a = some c := by
  obtain ⟨h1, h2⟩ | h1 | ⟨h1, h2, hl⟩ := h
  · by_cases ha : a.toNat ≤ 0x9FFF
    · exact ⟨_, storeCell_of_region (regionOf_video _ a h1 ha) (by decide)⟩
    by_cases hb : a.toNat ≤ 0xBFFF
    · exact ⟨_, storeCell_of_region (regionOf_externalRam _ a (by omega) hb) (by decide)⟩
    by_cases hc : a.toNat ≤ 0xDFFF
    · exact ⟨_, storeCell_of_region (regionOf_workRam _ a (by omega) hc) (by decide)⟩
    · exact ⟨_, storeCell_of_region (regionOf_workShadow _ a (by omega) h2) (by decide)⟩
  · exact ⟨_, storeCell_of_region (regionOf_zeroPage _ a h1) (by decide)⟩
  · exact ⟨_, by rw [storeCell_spriteMemory (regionOf_spriteMemory _ a h1 h2), hl]; rfl⟩

/-! The working RAM shadow -/

/-- Settles O9: both addresses store to the same cell, through which the reads and the writes go. -/
theorem shadowAliasesWorkRam : Obligations.ShadowAliasesWorkRam := by
  unfold Obligations.ShadowAliasesWorkRam
  intro s p a v h1 h2
  have hlow := toNat_and_0x1FFF a
  have hsub : (a - 0x2000).toNat = a.toNat - 0x2000 := by bv_omega
  have hprimary : a - 0x2000 = 0xC000 + (a &&& 0x1FFF#16) := by bv_omega
  have rShadow : s.region a = .workShadow := regionOf_workShadow _ a h1 h2
  have rPrimary : s.region (a - 0x2000) = .workRam := regionOf_workRam _ _ (by omega) (by omega)
  have hcell : cellOf .workRam (a - 0x2000) = cellOf .workShadow a := by
    simp only [cellOf, hsub, Option.some.injEq, Prod.mk.injEq, true_and]
    omega
  have cShadow : s.storeCell a = cellOf .workShadow a := storeCell_of_region rShadow (by decide)
  have cPrimary : s.storeCell (a - 0x2000) = cellOf .workShadow a :=
    (storeCell_of_region rPrimary (by decide)).trans hcell
  refine ⟨?_, ?_, by omega, hprimary, ?_, ?_, ?_, ?_⟩
  · rw [rShadow, hlow]
    rfl
  · rw [rShadow, rPrimary, hcell]
  · rw [readByte_of_storeCell p cShadow, readByte_of_storeCell p cPrimary]
  · rw [readByte_of_storeCell p cShadow]
  · rw [writeByte, writeByte, cShadow, cPrimary]
  · simp [State.writeUnsup, rShadow]

/-! Word accesses -/

/-- The parity of an address is that of the index of its cell: every array starts at an even address (R61). -/
theorem cellOf_parity {b : Bool} {a : Addr} {arr : Arr} {k : Nat} (h : cellOf (regionOf b a) a = some (arr, k)) :
    k % 2 = a.toNat % 2 := by
  unfold regionOf at h
  simp only at h
  repeat' split at h
  all_goals simp only [cellOf, Option.some.injEq, Prod.mk.injEq, reduceCtorEq] at h
  all_goals omega

/-- The two bytes of a word never select the same cell. -/
theorem storeCell_nextAddr_ne {s : State} {a : Addr} {c : Arr × Nat} (h : s.storeCell a = some c) :
    s.storeCell (nextAddr a) ≠ some c := by
  intro h'
  have e := cellOf_parity (storeCell_some _ _ _ h)
  have e' := cellOf_parity (storeCell_some _ _ _ h')
  have hn : (nextAddr a).toNat = (a.toNat + 1) % 0x10000 := by simp [nextAddr]
  omega

@[simp] theorem writeWord_storeCell (a b : Addr) (w : Word) (s : State) :
    (writeWord a w s).storeCell b = s.storeCell b := by
  simp [writeWord]

/-- Settles O11: each byte is read from its own cell, in which the word write left its half. -/
theorem wordRoundTrip : Obligations.WordRoundTrip := by
  unfold Obligations.WordRoundTrip
  intro s p a w _ hlo hhi
  obtain ⟨c, hc⟩ := storeCell_of_writable hlo
  obtain ⟨d, hd⟩ : ∃ d, s.storeCell (nextAddr a) = some d := storeCell_of_writable hhi
  have low : readByte (writeWord a w s) p a = (lowByte w, false) := by
    rw [readByte_of_storeCell p (by rw [writeWord_storeCell, hc]), writeWord_read, if_neg (storeCell_nextAddr_ne hc),
      if_pos hc]
  have high : readByte (writeWord a w s) p (nextAddr a) = (highByte w, false) := by
    rw [readByte_of_storeCell p (by rw [writeWord_storeCell, hd]), writeWord_read, if_pos hd]
  refine ⟨?_, low, high⟩
  rw [readWord, low, high, joinBytes_halves]
  rfl

/-! The tile rows -/

/-- A byte write at the address reaches one of the two bytes of a row of the tile cache (R191). -/
def State.storesRow (s : State) (a : Addr) (j : Nat) : Prop :=
  ∃ k, s.storeCell a = some (.vram, k) ∧ k < tileBoundary ∧ k / 2 = j

theorem writeByte_storesRow (a b : Addr) (v : Byte) (s : State) (j : Nat) :
    (writeByte a v s).storesRow b j ↔ s.storesRow b j := by
  simp [State.storesRow]

theorem writeWord_storesRow (a b : Addr) (w : Word) (s : State) (j : Nat) :
    (writeWord a w s).storesRow b j ↔ s.storesRow b j := by
  simp [State.storesRow]

/-- The pair around a video index is the pair at twice its half (R191). -/
theorem videoRow_half (m : Storage) (k : Nat) : videoRow m (k / 2 * 2) = videoRow m k := by
  simp [videoRow]

/-- A row word depends on the two bytes of its pair only (R191). -/
theorem videoRow_congr {m n : Storage} {j : Nat} (h : ∀ k, k / 2 = j → m.read .vram k = n.read .vram k) :
    videoRow m (j * 2) = videoRow n (j * 2) := by
  simp only [videoRow]
  rw [h _ (by omega), h _ (by omega)]

/-- A byte write leaves the rows it does not reach (R191). -/
theorem writeByte_tile_of_not_storesRow {a : Addr} {s : State} {j : Nat} (v : Byte) (h : ¬ s.storesRow a j) :
    Sparse.get 0#16 (writeByte a v s).tile j = Sparse.get 0#16 s.tile j := by
  unfold writeByte
  split
  · rename_i c hc
    rw [storeByte_tile]
    split
    · rename_i hv
      rw [writeVideoByte_tile]
      split
      · rename_i hk
        refine Sparse.get_set_other _ _ _ fun e => h ⟨c.2, ?_, hk, by omega⟩
        rw [hc, ← hv]
      · rfl
    · rfl
  · rfl

/-- A byte write recomputes the row it reaches from the pair as it is after the store (R191). -/
theorem writeByte_tile_of_storesRow {a : Addr} {s : State} {j : Nat} (v : Byte) (h : s.storesRow a j) :
    Sparse.get 0#16 (writeByte a v s).tile j = videoRow (writeByte a v s).mem (j * 2) := by
  obtain ⟨k, hc, hk, rfl⟩ := h
  have hj : k / 2 = 8 * (k / 16) + k % 16 / 2 := by omega
  rw [videoRow_half, writeByte_mem, writeByte, hc]
  simp only
  rw [storeByte_tile, if_pos rfl, writeVideoByte_tile, if_pos hk, hj, Sparse.get_set_same]

/-- A word write leaves the rows that neither of its bytes reaches (R124, R191). -/
theorem writeWord_tile_of_not_storesRow {a : Addr} {s : State} {j : Nat} (w : Word) (h : ¬ s.storesRow a j)
    (h' : ¬ s.storesRow (nextAddr a) j) :
    Sparse.get 0#16 (writeWord a w s).tile j = Sparse.get 0#16 s.tile j := by
  rw [writeWord, writeByte_tile_of_not_storesRow _ (by rwa [writeByte_storesRow]), writeByte_tile_of_not_storesRow _ h]

/-- A word write leaves in a row that one of its bytes reaches the pair as it is after both stores (R124, R191). -/
theorem writeWord_tile_of_storesRow {a : Addr} {s : State} {j : Nat} (w : Word)
    (h : s.storesRow a j ∨ s.storesRow (nextAddr a) j) :
    Sparse.get 0#16 (writeWord a w s).tile j = videoRow (writeWord a w s).mem (j * 2) := by
  by_cases h' : s.storesRow (nextAddr a) j
  · rw [writeWord, writeByte_tile_of_storesRow _ (by rwa [writeByte_storesRow])]
  · have hlow := h.resolve_right h'
    have ⟨k, _, hk, hkj⟩ := hlow
    rw [writeWord, writeByte_tile_of_not_storesRow _ (by rwa [writeByte_storesRow]), writeByte_tile_of_storesRow _ hlow]
    refine videoRow_congr fun i hi => ?_
    rw [writeByte_read _ _ (writeByte _ _ _), if_neg]
    rw [writeByte_storeCell]
    intro hc
    simp only [tileBoundary] at hk
    exact h' ⟨i, hc, by simp only [tileBoundary]; omega, hi⟩

/-- Settles O13: both bytes of the word go to the pair of the row, the low byte to the even one. -/
theorem tileRowIsByteSwapped : Obligations.TileRowIsByteSwapped := by
  unfold Obligations.TileRowIsByteSwapped
  intro s k w hk
  have ha : (BitVec.ofNat 16 (0x8000 + 2 * k)).toNat = 0x8000 + 2 * k := by simp; omega
  generalize BitVec.ofNat 16 (0x8000 + 2 * k) = a at ha ⊢
  have ha' : (nextAddr a).toNat = 0x8000 + (2 * k + 1) := by simp [nextAddr]; omega
  have hlo : s.storeCell a = some (.vram, 2 * k) := storeCell_video ha (by omega)
  have hhi : s.storeCell (nextAddr a) = some (.vram, 2 * k + 1) := storeCell_video ha' (by omega)
  have low : (writeWord a w s).mem.read .vram (2 * k) = lowByte w := by
    rw [writeWord_read, if_neg (storeCell_nextAddr_ne hlo), if_pos hlo]
  have high : (writeWord a w s).mem.read .vram (2 * k + 1) = highByte w := by
    rw [writeWord_read, if_pos hhi]
  have hrow : s.storesRow a k := ⟨2 * k, hlo, by simp only [tileBoundary]; omega, by omega⟩
  have hj : 8 * (k / 8) + k % 8 = k := by omega
  have hpair : k * 2 / 2 * 2 = 2 * k := by omega
  rw [State.tileRow, hj, writeWord_tile_of_storesRow w (.inl hrow)]
  simp only [videoRow, hpair, low, high]
  rfl

/-! Writing twice -/

/-- A second store of the same byte in a video cell leaves the storage and the row as they are (R191). -/
theorem writeVideoByte_idem (k : Nat) (v : Byte) (s : State) :
    writeVideoByte k v (writeVideoByte k v s) = writeVideoByte k v s := by
  by_cases hk : k < tileBoundary
  · simp only [writeVideoByte, if_pos hk, Storage.write_write, Sparse.set_set]
  · simp only [writeVideoByte, if_neg hk, Storage.write_write]

theorem storeByte_idem (c : Arr × Nat) (v : Byte) (s : State) :
    storeByte c v (storeByte c v s) = storeByte c v s := by
  by_cases hc : c.1 = .vram
  · simp only [storeByte, if_pos hc, writeVideoByte_idem]
  · simp only [storeByte, if_neg hc, Storage.write_write]

theorem writeByte_idem (a : Addr) (v : Byte) (s : State) : writeByte a v (writeByte a v s) = writeByte a v s := by
  cases hc : s.storeCell a with
  | none => simp [writeByte, hc]
  | some c =>
    have once : ∀ u : State, u.storeCell a = some c → writeByte a v u = storeByte c v u := by
      intro u hu
      rw [writeByte, hu]
    rw [once _ (by rw [writeByte_storeCell, hc]), once s hc, storeByte_idem]

theorem writeWord_read_idem (a : Addr) (w : Word) (s : State) (b : Arr) (k : Nat) :
    (writeWord a w (writeWord a w s)).mem.read b k = (writeWord a w s).mem.read b k := by
  rw [writeWord_read, writeWord_storeCell, writeWord_storeCell, writeWord_read]
  split
  · rfl
  · split <;> rfl

theorem writeWord_tileRow_idem (a : Addr) (w : Word) (s : State) (t r : Nat) :
    (writeWord a w (writeWord a w s)).tileRow t r = (writeWord a w s).tileRow t r := by
  unfold State.tileRow
  by_cases h : s.storesRow a (8 * t + r) ∨ s.storesRow (nextAddr a) (8 * t + r)
  · rw [writeWord_tile_of_storesRow w h, writeWord_tile_of_storesRow w (by simpa only [writeWord_storesRow] using h)]
    exact videoRow_congr fun k _ => writeWord_read_idem a w s .vram k
  · rw [not_or] at h
    exact writeWord_tile_of_not_storesRow w (by rw [writeWord_storesRow]; exact h.1)
      (by rw [writeWord_storesRow]; exact h.2)

/-- Settles O14: a second write finds in its cells, and in the rows of their pairs, what it leaves there. -/
theorem writesAreIdempotent : Obligations.WritesAreIdempotent := by
  unfold Obligations.WritesAreIdempotent
  refine ⟨fun s a v => writeByte_idem a v s, fun s a w _ => ⟨?_, fun t r _ => writeWord_tileRow_idem a w s t r⟩⟩
  exact writeWord_read_idem a w s

end Sys2Proof.Machine
end

/-! Proofs: the graphics tick writes nothing, and locked OAM (R70, R272, R323) -/

section
namespace Sys2Proof.Machine

/-! The graphics tick and the storage -/

/-- The storage and the tile cache are the same. -/
structure SameStorage (s t : State) : Prop where
  mem : t.mem = s.mem
  tile : t.tile = s.tile

theorem SameStorage.trans {s t u : State} (h : SameStorage s t) (k : SameStorage t u) : SameStorage s u :=
  ⟨k.mem.trans h.mem, k.tile.trans h.tile⟩

/-- The operations that read (R146, R147). -/
def isReadOp : Instr → Bool
  | .rb _ => true
  | .rw _ => true
  | .wb _ _ => false
  | .ww _ _ => false

/-- A read decodes to itself (R91, R92). -/
theorem decode_encode_of_isReadOp {i : Instr} (hi : isReadOp i = true) : decode (encode i) = i := by
  cases i with
  | rb a =>
    obtain ⟨hop, haddr, -⟩ := Sys2Proof.Laws.EncodeFields.rb a
    rw [decode, hop, haddr]
    rfl
  | rw a =>
    obtain ⟨hop, haddr, -⟩ := Sys2Proof.Laws.EncodeFields.rw a
    rw [decode, hop, haddr]
    rfl
  | wb a v => cases hi
  | ww a w => cases hi

/-- A read leaves the storage and the tile cache as they are, whichever way it ends (R71, R146, R147). -/
theorem exec_sameStorage_of_isReadOp {i : Instr} {s t : State} (hi : isReadOp i = true) (h : exec i s = .next t) :
    SameStorage s t := by
  have effect : effectOf i s = s := by
    cases i with
    | rb a => rfl
    | rw a => rfl
    | wb a v => cases hi
    | ww a w => cases hi
  obtain ⟨-, ⟨-, -, rfl⟩ | ⟨-, -, rfl⟩ | ⟨-, rfl⟩⟩ := exec_next _ _ _ h
  · rw [effect]
    exact ⟨rfl, rfl⟩
  · exact ⟨rfl, rfl⟩
  · exact ⟨rfl, rfl⟩

/-- With no request pending, a read on port G is the only operation serviced (R152). -/
theorem busReadG_sameStorage {i : Instr} {s t : State} (hi : isReadOp i = true) (hq : s.arb.queue = [])
    (h : busReadG i s = .next t) : SameStorage s t := by
  have free : s.arb.fatal = false ∧ (s.arb.req .portG).valid = false := by
    obtain ⟨h1, -⟩ | ⟨u, h1, -⟩ := thenRun_next h
    · obtain ⟨hf, hv, -⟩ := submit_next h1
      exact ⟨hf, hv⟩
    · obtain ⟨hf, hv, -⟩ := submit_next h1
      exact ⟨hf, hv⟩
  rw [busReadG, transact_alone .portG _ s free.1 hq free.2, decode_encode_of_isReadOp hi] at h
  have taken : SameStorage s (takeHead .portG [] (enqueueRequest .portG (encode i) s)) := ⟨rfl, rfl⟩
  exact taken.trans (exec_sameStorage_of_isReadOp hi h)

theorem readThen_sameStorage {i : Instr} {f : State → State} {s t : State} (hi : isReadOp i = true)
    (hf : ∀ u, SameStorage u (f u)) (hq : s.arb.queue = [])
    (h : thenRun (busReadG i s) (fun u => .next (f u)) = .next t) : SameStorage s t := by
  refine thenRun_keeps h (fun _ h1 => busReadG_sameStorage hi hq h1) fun u hu h2 => ?_
  cases h2
  exact hu.trans (hf u)

theorem fetchStage_sameStorage {s t : State} (hq : s.arb.queue = []) (h : fetchStage s = .next t) :
    SameStorage s t := by
  have phase : SameStorage s (setPhase false s) := ⟨rfl, rfl⟩
  unfold fetchStage at h
  split at h
  · cases h
    exact ⟨rfl, rfl⟩
  · split at h
    · exact phase.trans (readThen_sameStorage (f := fun u => gotTileNo (lowByte (replyDataG u)) u) rfl
        (fun _ => ⟨rfl, rfl⟩) hq h)
    · cases h
      exact ⟨rfl, rfl⟩
  · split at h
    · exact phase.trans (readThen_sameStorage (f := fun u => gotByte0 (lowByte (replyDataG u)) u) rfl
        (fun _ => ⟨rfl, rfl⟩) hq h)
    · cases h
      exact ⟨rfl, rfl⟩
  · split at h
    · exact phase.trans (readThen_sameStorage (f := fun u => gotByte1 (lowByte (replyDataG u)) u) rfl
        (fun _ => ⟨rfl, rfl⟩) hq h)
    · cases h
      exact ⟨rfl, rfl⟩

theorem overlayStage_sameStorage {s t : State} (h : overlayStage s = .next t) : SameStorage s t := by
  obtain ⟨-, rfl⟩ | ⟨n, u, -, hu, ht⟩ := overlayStage_next h
  · exact ⟨rfl, rfl⟩
  · have fr : SameButSlots s u := overlayFrom_frame _ hu
    obtain ⟨-, rfl⟩ | ⟨-, rfl⟩ := ht
    · exact ⟨fr.mem, fr.tile⟩
    · exact ⟨fr.mem, fr.tile⟩

theorem emitStage_sameStorage {s t : State} (h : emitStage s = .next t) : SameStorage s t := by
  unfold emitStage at h
  split at h
  · refine thenRun_keeps h (fun _ h1 => overlayStage_sameStorage h1) fun u hu h2 => ?_
    cases h2
    exact hu.trans ⟨rfl, rfl⟩
  · cases h
    exact ⟨rfl, rfl⟩

theorem dot_sameStorage {s t : State} (hq : s.arb.queue = []) (h : dot s = .next t) : SameStorage s t := by
  unfold dot at h
  split at h
  · cases h
    exact ⟨rfl, rfl⟩
  · refine thenRun_keeps h (fun _ h1 => fetchStage_sameStorage hq h1) fun u hu h2 => ?_
    have he : SameStorage u (enqueueStage u) := ⟨rfl, rfl⟩
    exact hu.trans (he.trans (emitStage_sameStorage h2))

theorem oamScanTick_sameStorage {s t : State} (hq : s.arb.queue = []) (h : oamScanTick s = .next t) :
    SameStorage s t := by
  have started : ∀ u, (u = newLine s ∨ u = s) → SameStorage s u ∧ u.arb.queue = [] := by
    rintro u (rfl | rfl)
    · exact ⟨⟨rfl, rfl⟩, hq⟩
    · exact ⟨⟨rfl, rfl⟩, hq⟩
  obtain ⟨hs, hq'⟩ := started (if s.timer.counter = 0 then newLine s else s) (ite_eq_or_eq _ _ _)
  unfold oamScanTick scanStep at h
  refine thenRun_keeps h (fun u h1 => ?_) fun u hu h2 => ?_
  · exact hs.trans (readThen_sameStorage rfl (fun _ => ⟨by simp, by simp⟩) hq' h1)
  · cases h2
    refine hu.trans ?_
    split
    · exact ⟨rfl, rfl⟩
    · exact ⟨rfl, rfl⟩

theorem pixelTransferTick_sameStorage {s t : State} (hq : s.arb.queue = []) (h : pixelTransferTick s = .next t) :
    SameStorage s t := by
  unfold pixelTransferTick at h
  refine thenRun_keeps h (fun _ h1 => dot_sameStorage hq h1) fun u hu h2 => ?_
  cases h2
  refine hu.trans ?_
  split
  · exact ⟨rfl, rfl⟩
  · exact ⟨rfl, rfl⟩

/-- The graphics actor only reads: a tick changes neither the storage nor the tile cache (R272). -/
theorem tick_sameStorage {s t : State} (h : tick s = .next t) : SameStorage s t := by
  obtain ⟨-, ⟨-, -, hq⟩, ht⟩ := tick_next h
  obtain ⟨-, rfl⟩ | ⟨-, ⟨-, h⟩ | ⟨-, h⟩ | ⟨-, rfl⟩ | ⟨-, rfl⟩⟩ := ht
  · exact ⟨rfl, rfl⟩
  · exact oamScanTick_sameStorage hq h
  · exact pixelTransferTick_sameStorage hq h
  · obtain ⟨tm, st, e⟩ := hBlankTick_frame s
    rw [e]
    exact ⟨rfl, rfl⟩
  · obtain ⟨tm, e⟩ := vBlankTick_frame s
    rw [e]
    exact ⟨rfl, rfl⟩

/-! The lock of OAM -/

/-- The cells of OAM belong to its region alone (R61). -/
theorem eq_spriteMemory_of_cellOf {r : Region} {a : Addr} {k : Nat} (h : cellOf r a = some (.oam, k)) :
    r = .spriteMemory := by
  cases r <;> simp [cellOf] at h ⊢

/-- While OAM is locked no write stores to a cell of it (R70, R122). -/
theorem storeCell_ne_oam {s : State} (hl : s.oamLocked = true) (a : Addr) (k : Nat) :
    s.storeCell a ≠ some (.oam, k) := by
  intro h
  have hr : s.region a = .spriteMemory := eq_spriteMemory_of_cellOf (storeCell_some _ _ _ h)
  rw [storeCell_spriteMemory hr, hl] at h
  cases h

theorem effectOf_oam {s : State} (hl : s.oamLocked = true) (i : Instr) (k : Nat) :
    (effectOf i s).mem.read .oam k = s.mem.read .oam k := by
  cases i with
  | rb a => rfl
  | rw a => rfl
  | wb a v => rw [effectOf, writeByte_read, if_neg (storeCell_ne_oam hl a k)]
  | ww a w => rw [effectOf, writeWord_read, if_neg (storeCell_ne_oam hl _ k), if_neg (storeCell_ne_oam hl a k)]

/-- OAM is locked in the later state, and holds the bytes it holds in the earlier one. -/
structure HeldOam (s t : State) : Prop where
  locked : t.oamLocked = true
  read : ∀ k, t.mem.read .oam k = s.mem.read .oam k

theorem service_heldOam {s t u : State} (h : HeldOam s t) (hs : service t = .next u) : HeldOam s u := by
  have fr := service_frame hs
  obtain ⟨-, p, rest, -, he⟩ := service_next hs
  refine ⟨?_, fun k => Eq.trans ?_ (h.read k)⟩
  · rw [State.oamLocked, fr.cfg, fr.timer]
    exact h.locked
  · obtain ⟨-, ⟨-, -, rfl⟩ | ⟨-, -, rfl⟩ | ⟨-, rfl⟩⟩ := exec_next _ _ _ he
    · exact effectOf_oam (s := takeHead p rest t) h.locked _ k
    · rfl
    · rfl

/-- Settles O36: the bus moves keep the lock and what it protects, a tick writes nothing, and the host's loads go to
other arrays. -/
theorem lockedOamUnchanged : Obligations.LockedOamUnchanged := by
  unfold Obligations.LockedOamUnchanged
  intro m s t hl hm h k
  have same : HeldOam s s := ⟨hl, fun _ => rfl⟩
  have onSubmit : ∀ p w u, u.arb.fatal = false → (u.arb.req p).valid = false → HeldOam s u →
      HeldOam s (enqueueRequest p w u) := fun _ _ _ _ _ hu => ⟨hu.locked, hu.read⟩
  cases m with
  | submit p w =>
    obtain ⟨-, -, rfl⟩ := submit_next h
    rfl
  | submitBoth wP wG => exact (submitBoth_keeps onSubmit (fun _ hu => ⟨hu.locked, hu.read⟩) h same).read k
  | service => exact (service_heldOam same h).read k
  | transact p w => exact (transact_keeps _ onSubmit (fun _ _ => service_heldOam) p w s t h same).read k
  | tick => rw [(tick_sameStorage h).mem]
  | reset => exact absurd rfl hm
  | loadBoot b =>
    obtain ⟨-, rfl⟩ := hostEvent_next h
    simp [loadBoot, Storage.read_load]
  | loadRom b =>
    obtain ⟨-, rfl⟩ := hostEvent_next h
    simp [loadRom, Storage.read_load]
  | setInBoot b | tileReset | sever =>
    obtain ⟨-, rfl⟩ := hostEvent_next h
    rfl

end Sys2Proof.Machine
end

/-! Proofs: request words, response words and pixel codes on the wire (R91 to R104, R194, R244) -/

section
namespace Sys2Proof.Machine

/-! Request words -/

/-- The byte written survives the widening to the payload field (R91, R105). -/
@[simp] theorem byteOf_setWidth (v : Byte) : byteOf (v.setWidth 16) = v :=
  (BitVec.setWidth_setWidth_of_le v (by decide)).trans v.setWidth_eq

/-- What the decoder makes of a word with each operation code (R92). -/
theorem decode_of_reqOp_rb {w : ReqWord} (h : reqOp w = 0) : decode w = .rb (reqAddr w) := by
  rw [decode, h]
  rfl

theorem decode_of_reqOp_rw {w : ReqWord} (h : reqOp w = 1) : decode w = .rw (reqAddr w) := by
  rw [decode, h]
  rfl

theorem decode_of_reqOp_wb {w : ReqWord} (h : reqOp w = 2) : decode w = .wb (reqAddr w) (byteOf (reqData w)) := by
  rw [decode, h]
  rfl

theorem decode_of_reqOp_ww {w : ReqWord} (h : reqOp w = 3) : decode w = .ww (reqAddr w) (reqData w) := by
  rw [decode, h]
  rfl

/-- The decoder undoes the encoder (R91, R92). -/
theorem decode_encode (i : Instr) : decode (encode i) = i := by
  cases i with
  | rb a =>
    obtain ⟨hop, haddr, -⟩ := Sys2Proof.Laws.EncodeFields.rb a
    rw [decode_of_reqOp_rb hop, haddr]
    rfl
  | rw a =>
    obtain ⟨hop, haddr, -⟩ := Sys2Proof.Laws.EncodeFields.rw a
    rw [decode_of_reqOp_rw hop, haddr]
    rfl
  | wb a v =>
    obtain ⟨hop, haddr, hdata⟩ := Sys2Proof.Laws.EncodeFields.wb a v
    rw [decode_of_reqOp_wb hop, haddr, hdata, Instr.dataField, byteOf_setWidth]
    rfl
  | ww a d =>
    obtain ⟨hop, haddr, hdata⟩ := Sys2Proof.Laws.EncodeFields.ww a d
    rw [decode_of_reqOp_ww hop, haddr, hdata]
    rfl

/-- Settles O1: the fields read back from the word are the instruction's own, and its operation code selects its form. -/
theorem decodeOfEncode : Obligations.DecodeOfEncode := by
  unfold Obligations.DecodeOfEncode
  exact decode_encode

/-- An operation code is one of the four of R92. -/
theorem opCode_cases (op : BitVec 2) : op = 0 ∨ op = 1 ∨ op = 2 ∨ op = 3 := by
  revert op
  decide

/-- A word is put together from its own fields (R91). -/
theorem reqWord_of_fields (w : ReqWord) : reqWord (reqOp w) (reqAddr w) (reqData w) = w := latchOf_word w 0

theorem decode_opCode (w : ReqWord) : (decode w).opCode = reqOp w := by
  obtain h | h | h | h := opCode_cases (reqOp w)
  · rw [decode_of_reqOp_rb h, h]
    rfl
  · rw [decode_of_reqOp_rw h, h]
    rfl
  · rw [decode_of_reqOp_wb h, h]
    rfl
  · rw [decode_of_reqOp_ww h, h]
    rfl

theorem decode_addrField (w : ReqWord) : (decode w).addrField = reqAddr w := by
  obtain h | h | h | h := opCode_cases (reqOp w)
  · rw [decode_of_reqOp_rb h]
    rfl
  · rw [decode_of_reqOp_rw h]
    rfl
  · rw [decode_of_reqOp_wb h]
    rfl
  · rw [decode_of_reqOp_ww h]
    rfl

/-- The exact kernel of the decoder: only payload bits the operation ignores are lost (R104 b). -/
theorem decode_eq_iff (w w' : ReqWord) :
    decode w = decode w' ↔
      reqOp w = reqOp w' ∧ reqAddr w = reqAddr w' ∧
        (reqOp w = 2 → byteOf (reqData w) = byteOf (reqData w')) ∧ (reqOp w = 3 → reqData w = reqData w') := by
  constructor
  · intro h
    have hop : reqOp w = reqOp w' := by rw [← decode_opCode w, h, decode_opCode]
    have haddr : reqAddr w = reqAddr w' := by rw [← decode_addrField w, h, decode_addrField]
    refine ⟨hop, haddr, fun hw => ?_, fun hw => ?_⟩
    · rw [decode_of_reqOp_wb hw, decode_of_reqOp_wb (hop ▸ hw)] at h
      exact (Instr.wb.inj h).2
    · rw [decode_of_reqOp_ww hw, decode_of_reqOp_ww (hop ▸ hw)] at h
      exact (Instr.ww.inj h).2
  · rintro ⟨hop, haddr, hbyte, hword⟩
    obtain h | h | h | h := opCode_cases (reqOp w)
    · rw [decode_of_reqOp_rb h, decode_of_reqOp_rb (hop ▸ h), haddr]
    · rw [decode_of_reqOp_rw h, decode_of_reqOp_rw (hop ▸ h), haddr]
    · rw [decode_of_reqOp_wb h, decode_of_reqOp_wb (hop ▸ h), haddr, hbyte h]
    · rw [decode_of_reqOp_ww h, decode_of_reqOp_ww (hop ▸ h), haddr, hword h]

/-- The table's mask keeps the operation code and clears the rest (R92). -/
theorem and_opMask (w : ReqWord) : w &&& 0x300000000#34 = reqWord (reqOp w) 0#16 0#16 := by
  have hmask : 0x300000000#34 = reqWord 3 0#16 0#16 := by decide
  have masked : ∀ (op : BitVec 2) (a d : Word),
      reqWord op a d &&& reqWord 3 0#16 0#16 = reqWord (op &&& 3) (a &&& 0#16) (d &&& 0#16) :=
    fun _ _ d => BitVec.and_append.trans (congrArg (· ++ (d &&& 0#16)) BitVec.and_append)
  have hop : ∀ op : BitVec 2, op &&& 3 = op := by decide
  calc w &&& 0x300000000#34
      = reqWord (reqOp w) (reqAddr w) (reqData w) &&& reqWord 3 0#16 0#16 := by rw [reqWord_of_fields, hmask]
    _ = reqWord (reqOp w) 0#16 0#16 := by rw [masked, hop, BitVec.and_zero, BitVec.and_zero]

/-- Every row has the one mask of the table, and its pattern is an operation code alone (R92). -/
theorem opRows_shape : ∀ r ∈ opRows, r.mask = 0x300000000#34 ∧ r.pattern = reqWord (reqOp r.pattern) 0#16 0#16 := by
  decide

/-- A word fits a row of the table exactly when it has the row's operation code (R92). -/
theorem fits_iff_reqOp {r : OpRow} (hr : r ∈ opRows) (w : ReqWord) :
    r.fits w = true ↔ reqOp w = reqOp r.pattern := by
  obtain ⟨hmask, hpattern⟩ := opRows_shape r hr
  have injective : ∀ op op' : BitVec 2, reqWord op 0#16 0#16 = reqWord op' 0#16 0#16 ↔ op = op' := by decide
  rw [OpRow.fits, decide_eq_true_iff, hmask, and_opMask]
  conv_lhs => rw [hpattern]
  exact injective _ _

/-- The encoder sends an instruction with its operation code (R92). -/
theorem reqOp_encode (i : Instr) : reqOp (encode i) = i.opCode :=
  (reqWord_fields _ _ _).1

/-- Settles O2: a word's row is the one of its operation code, which encoding and decoding keep, and of each payload the
decoder keeps what the operation uses. -/
theorem everyWordIsOneRow : Obligations.EveryWordIsOneRow := by
  unfold Obligations.EveryWordIsOneRow
  intro w
  have one_row : ∀ op : BitVec 2, (opRows.filter fun r => op = reqOp r.pattern).length = 1 := by decide
  refine ⟨?_, fun r hr hw => ?_, decode_eq_iff w⟩
  · rw [List.filter_congr (q := fun r => reqOp w = reqOp r.pattern) fun r hr => ?_]
    · exact one_row (reqOp w)
    · rw [Bool.eq_iff_iff, fits_iff_reqOp hr, decide_eq_true_iff]
  · have kept : reqOp (encode (decode w)) = reqOp w := by rw [reqOp_encode, decode_opCode]
    have fits : r.fits (encode (decode w)) = true := by
      rw [fits_iff_reqOp hr, kept]
      exact (fits_iff_reqOp hr w).mp hw
    exact of_decide_eq_true fits

/-- Settles O4: each word's operation code selects the form, and its fields are the ones named. -/
theorem workedWordsDecode : Obligations.WorkedWordsDecode := by
  unfold Obligations.WorkedWordsDecode
  decide

/-! Response words and the other wire forms -/

/-- Two bit vectors side by side, as a number: the left one counts in units above the right one. -/
theorem toNat_append_eq_add {m n : Nat} (x : BitVec m) (y : BitVec n) :
    (x ++ y).toNat = 2 ^ n * x.toNat + y.toNat := by
  rw [BitVec.toNat_append, ← Nat.shiftLeft_add_eq_or_of_lt y.isLt, Nat.shiftLeft_eq, Nat.mul_comm]

/-- Three fields side by side, as a number. -/
theorem toNat_append_append {k m n : Nat} (x : BitVec k) (y : BitVec m) (z : BitVec n) :
    (x ++ y ++ z).toNat = 2 ^ (n + m) * x.toNat + 2 ^ n * y.toNat + z.toNat := by
  rw [toNat_append_eq_add, toNat_append_eq_add, pow_add, Nat.mul_add, Nat.mul_assoc]

/-- The status code and its inverse (R94). -/
@[simp] theorem Status.ofCode_code (x : Status) : Status.ofCode x.code = x := by
  cases x <;> rfl

@[simp] theorem Status.code_ofCode (c : BitVec 2) : (Status.ofCode c).code = c := by
  revert c
  decide

/-- A response word as a number, each field in its place (R93). -/
theorem Rsp.encode_toNat (r : Rsp) :
    r.encode.toNat = 2 ^ 17 * r.status.code.toNat + 2 ^ 16 * r.unsup.toNat + r.data.toNat := by
  have h := toNat_append_append r.status.code (BitVec.ofBool r.unsup) r.data
  rwa [BitVec.toNat_ofBool] at h

/-- The fields of a response word as numbers (R93). -/
theorem decodeRsp_fields (w : RspWord) :
    (decodeRsp w).status.code.toNat = w.toNat / 2 ^ 17 % 4 ∧
      (decodeRsp w).unsup.toNat = w.toNat / 2 ^ 16 % 2 ∧ (decodeRsp w).data.toNat = w.toNat % 2 ^ 16 := by
  refine ⟨?_, Nat.toNat_testBit _ _, ?_⟩
  · rw [decodeRsp, Status.code_ofCode, BitVec.extractLsb'_toNat, Nat.shiftRight_eq_div_pow]
  · rw [decodeRsp, BitVec.extractLsb'_toNat, Nat.shiftRight_zero]

/-- A response is given by its three fields as numbers (R93). -/
theorem Rsp.eq_of_toNat {r r' : Rsp} (hstatus : r.status.code.toNat = r'.status.code.toNat)
    (hunsup : r.unsup.toNat = r'.unsup.toNat) (hdata : r.data.toNat = r'.data.toNat) : r = r' := by
  have same_status : r.status = r'.status := by
    rw [← Status.ofCode_code r.status, BitVec.eq_of_toNat_eq hstatus, Status.ofCode_code]
  have same_unsup : r.unsup = r'.unsup := by rw [← Bool.ofNat_toNat r.unsup, hunsup, Bool.ofNat_toNat]
  have same_data : r.data = r'.data := BitVec.eq_of_toNat_eq hdata
  cases r
  cases r'
  rw [Rsp.mk.injEq]
  exact ⟨same_status, same_unsup, same_data⟩

theorem encode_decodeRsp (w : RspWord) : (decodeRsp w).encode = w := by
  obtain ⟨hstatus, hunsup, hdata⟩ := decodeRsp_fields w
  refine BitVec.eq_of_toNat_eq ?_
  rw [Rsp.encode_toNat, hstatus, hunsup, hdata]
  have := w.isLt
  omega

theorem decodeRsp_encode (r : Rsp) : decodeRsp r.encode = r := by
  obtain ⟨hstatus, hunsup, hdata⟩ := decodeRsp_fields r.encode
  have word := r.encode_toNat
  have := r.status.code.isLt
  have := r.unsup.toNat_lt
  have := r.data.isLt
  exact Rsp.eq_of_toNat (by omega) (by omega) (by omega)

/-- A slot's word as a number, each field in its place (R101). -/
theorem Slot.bits_toNat (x : Slot) :
    x.bits.toNat = 16 * x.valid.toNat + 4 * x.src.code.toNat + x.code.toNat := by
  have h := toNat_append_append (BitVec.ofBool x.valid) x.src.code x.code
  rwa [BitVec.toNat_ofBool] at h

/-- Settles O3: each word is its fields side by side, and as a number the sum of them in their places. -/
theorem responseWordRoundTrip : Obligations.ResponseWordRoundTrip := by
  unfold Obligations.ResponseWordRoundTrip
  refine ⟨fun r => ⟨decodeRsp_encode r, r.encode_toNat⟩, encode_decodeRsp, ?_, ?_, ?_, ?_, ?_, Slot.bits_toNat,
    fun x => toNat_append_eq_add x.src.code x.code⟩
  case refine_1 | refine_2 | refine_3 | refine_4 | refine_5 => rfl

/-! Pixel codes and colour names -/

/-- A pixel code as a number: the left plane's bit is the high one (R98). -/
theorem pix_toNat (row : Word) (x : Nat) :
    (pix row x).toNat = 2 * (row.getLsbD (15 - x)).toNat + (row.getLsbD (7 - x)).toNat := by
  have h := toNat_append_eq_add (BitVec.ofBool (row.getLsbD (15 - x))) (BitVec.ofBool (row.getLsbD (7 - x)))
  rwa [BitVec.toNat_ofBool, BitVec.toNat_ofBool] at h

/-- Settles O16: a pixel's code is its two plane bits side by side, and its colour name reads the code alone. -/
theorem pixelDecode : Obligations.PixelDecode := by
  unfold Obligations.PixelDecode
  refine ⟨pix_toNat, ?_, ?_, ?_, fun c x => rfl, fun x => rfl⟩
  case refine_1 | refine_2 | refine_3 => decide

end Sys2Proof.Machine
end

/-! Proofs: what a graphics tick does to the bus side (R170, R272), and the responses a step delivers (R93, R145, R150,
R298) -/

section
namespace Sys2Proof.Machine

/-! The bus side of a graphics tick -/

theorem SameBus.refl (s : State) : SameBus s s := ⟨rfl, rfl, rfl, rfl, rfl⟩

theorem SameBus.trans {s t u : State} (h : SameBus s t) (k : SameBus t u) : SameBus s u :=
  ⟨k.cfg.trans h.cfg, k.mem.trans h.mem, k.inBoot.trans h.inBoot, k.tile.trans h.tile, k.arb.trans h.arb⟩

theorem SameBus.raiseFatal_congr {s t : State} (h : SameBus s t) (c : FatalCause) :
    SameBus (raiseFatal c s) (raiseFatal c t) :=
  ⟨h.cfg, h.mem, h.inBoot, h.tile, congrArg (fun b => { b with fatal := true, cause := c }) h.arb⟩

/-- On the bus side at most one port-G read has been made (R8, R272). -/
def ReadsAtMostOnce (s t : State) : Prop :=
  SameBus s t ∨ ∃ i u v, isReadOp i = true ∧ SameBus s u ∧ busReadG i u = .next v ∧ SameBus v t

/-- On the bus side at most a raise of Fatal from a running state has happened (R291). -/
def RaisesAtMostOnce (s t : State) : Prop :=
  SameBus s t ∨ ∃ c, s.arb.fatal = false ∧ SameBus (raiseFatal c s) t

/-- On the bus side at most one port-G read has been made, and at most one raise of Fatal after it. -/
def ReadsThenRaises (s t : State) : Prop := ∃ u, ReadsAtMostOnce s u ∧ RaisesAtMostOnce u t

theorem ReadsAtMostOnce.after_sameBus {s t u : State} (h : SameBus s t) (k : ReadsAtMostOnce t u) :
    ReadsAtMostOnce s u := by
  obtain k | ⟨i, v, w, hi, hv, hr, hw⟩ := k
  · exact .inl (h.trans k)
  · exact .inr ⟨i, v, w, hi, h.trans hv, hr, hw⟩

theorem ReadsAtMostOnce.then_sameBus {s t u : State} (h : ReadsAtMostOnce s t) (k : SameBus t u) :
    ReadsAtMostOnce s u := by
  obtain h | ⟨i, v, w, hi, hv, hr, hw⟩ := h
  · exact .inl (h.trans k)
  · exact .inr ⟨i, v, w, hi, hv, hr, hw.trans k⟩

theorem RaisesAtMostOnce.after_sameBus {s t u : State} (h : SameBus s t) (k : RaisesAtMostOnce t u) :
    RaisesAtMostOnce s u := by
  obtain k | ⟨c, hf, k⟩ := k
  · exact .inl (h.trans k)
  · exact .inr ⟨c, h.arb ▸ hf, (h.raiseFatal_congr c).trans k⟩

theorem RaisesAtMostOnce.then_sameBus {s t u : State} (h : RaisesAtMostOnce s t) (k : SameBus t u) :
    RaisesAtMostOnce s u := by
  obtain h | ⟨c, hf, h⟩ := h
  · exact .inl (h.trans k)
  · exact .inr ⟨c, hf, h.trans k⟩

theorem ReadsThenRaises.of_reads {s t : State} (h : ReadsAtMostOnce s t) : ReadsThenRaises s t :=
  ⟨t, h, .inl (SameBus.refl t)⟩

theorem ReadsThenRaises.of_raises {s t : State} (h : RaisesAtMostOnce s t) : ReadsThenRaises s t :=
  ⟨s, .inl (SameBus.refl s), h⟩

theorem ReadsThenRaises.then_sameBus {s t u : State} (h : ReadsThenRaises s t) (k : SameBus t u) :
    ReadsThenRaises s u := by
  obtain ⟨v, hv, ht⟩ := h
  exact ⟨v, hv, ht.then_sameBus k⟩

/-- A port-G read and a change outside the bus side after it. -/
theorem readThen_readsAtMostOnce {i : Instr} {f : State → State} {s t : State} (hi : isReadOp i = true)
    (hf : ∀ u, SameBus u (f u)) (h : thenRun (busReadG i s) (fun u => .next (f u)) = .next t) :
    ReadsAtMostOnce s t := by
  refine thenRun_keeps h (fun u hu => .inr ⟨i, s, u, hi, SameBus.refl s, hu, SameBus.refl u⟩) fun u hu h2 => ?_
  cases h2
  exact hu.then_sameBus (hf u)

/-- The fetch stage makes at most one read (R233). -/
theorem fetchStage_readsAtMostOnce {s t : State} (h : fetchStage s = .next t) : ReadsAtMostOnce s t := by
  have phase : ∀ b, SameBus s (setPhase b s) := fun b => ⟨rfl, rfl, rfl, rfl, rfl⟩
  have read : ∀ {a : Addr} {f : State → State}, (∀ u, SameBus u (f u)) →
      thenRun (busReadG (.rb a) (setPhase false s)) (fun u => .next (f u)) = .next t → ReadsAtMostOnce s t :=
    fun hf hr => (readThen_readsAtMostOnce rfl hf hr).after_sameBus (phase false)
  unfold fetchStage at h
  split at h
  · cases h
    exact .inl (SameBus.refl s)
  · split at h
    · exact read (f := fun u => gotTileNo (lowByte (replyDataG u)) u) (fun _ => ⟨rfl, rfl, rfl, rfl, rfl⟩) h
    · cases h
      exact .inl (phase true)
  · split at h
    · exact read (f := fun u => gotByte0 (lowByte (replyDataG u)) u) (fun _ => ⟨rfl, rfl, rfl, rfl, rfl⟩) h
    · cases h
      exact .inl (phase true)
  · split at h
    · exact read (f := fun u => gotByte1 (lowByte (replyDataG u)) u) (fun _ => ⟨rfl, rfl, rfl, rfl, rfl⟩) h
    · cases h
      exact .inl (phase true)

/-- The overlay of a sprite on a running block raises Fatal at most once (R240, R242). -/
theorem overlay_raisesAtMostOnce {n : Fin 40} {s t : State} (hf : s.arb.fatal = false) (h : overlay n s = .next t) :
    RaisesAtMostOnce s t := by
  have fr : SameButSlots s t := overlayFrom_frame _ h
  obtain ha | ha := fr.arb
  · exact .inl ⟨fr.cfg, fr.mem, fr.inBoot, fr.tile, ha⟩
  · exact .inr ⟨.overlayEmptySlot, hf, ⟨fr.cfg, fr.mem, fr.inBoot, fr.tile, ha⟩⟩

/-- Behind the gate nothing is read, and a running block raises Fatal at most once (R230, R242). -/
theorem emitStage_raisesAtMostOnce {s t : State} (hf : s.arb.fatal = false) (h : emitStage s = .next t) :
    RaisesAtMostOnce s t := by
  have overlaid : ∀ u, overlayStage s = .next u → RaisesAtMostOnce s u := by
    intro u hu
    obtain ⟨-, rfl⟩ | ⟨n, v, -, hv, ⟨-, rfl⟩ | ⟨-, rfl⟩⟩ := overlayStage_next hu
    · exact .inl (SameBus.refl u)
    · exact overlay_raisesAtMostOnce hf hv
    · exact (overlay_raisesAtMostOnce hf hv).then_sameBus ⟨rfl, rfl, rfl, rfl, rfl⟩
  unfold emitStage at h
  split at h
  · refine thenRun_keeps h overlaid fun u hu h2 => ?_
    cases h2
    exact hu.then_sameBus ⟨rfl, rfl, rfl, rfl, rfl⟩
  · cases h
    exact .inl (SameBus.refl s)

theorem dot_readsThenRaises {s t : State} (h : dot s = .next t) : ReadsThenRaises s t := by
  unfold dot at h
  split at h
  · cases h
    exact .of_reads (.inl (SameBus.refl s))
  · obtain ⟨h1, -⟩ | ⟨u, h1, hf, h2⟩ := thenRun_next h
    · exact .of_reads (fetchStage_readsAtMostOnce h1)
    · have enqueued : SameBus u (enqueueStage u) := ⟨rfl, rfl, rfl, rfl, rfl⟩
      exact ⟨u, fetchStage_readsAtMostOnce h1,
        (emitStage_raisesAtMostOnce (s := enqueueStage u) hf h2).after_sameBus enqueued⟩

theorem oamScanTick_readsAtMostOnce {s t : State} (h : oamScanTick s = .next t) : ReadsAtMostOnce s t := by
  have started : SameBus s (if s.timer.counter = 0 then newLine s else s) := by
    split
    · exact ⟨rfl, rfl, rfl, rfl, rfl⟩
    · exact SameBus.refl s
  unfold oamScanTick scanStep at h
  refine thenRun_keeps h (fun u h1 => ?_) fun u hu h2 => ?_
  · exact (readThen_readsAtMostOnce rfl (fun _ => loadScanned_sameBus _ _ _) h1).after_sameBus started
  · cases h2
    refine hu.then_sameBus ?_
    split
    · exact ⟨rfl, rfl, rfl, rfl, rfl⟩
    · exact ⟨rfl, rfl, rfl, rfl, rfl⟩

theorem pixelTransferTick_readsThenRaises {s t : State} (h : pixelTransferTick s = .next t) : ReadsThenRaises s t := by
  obtain ⟨u, hu, rfl | rfl | ⟨-, rfl⟩⟩ := pixelTransferTick_next h
  · exact dot_readsThenRaises hu
  · exact (dot_readsThenRaises hu).then_sameBus ⟨rfl, rfl, rfl, rfl, rfl⟩
  · exact (dot_readsThenRaises hu).then_sameBus ⟨rfl, rfl, rfl, rfl, rfl⟩

/-- Everything a graphics tick can do to the bus side: one port-G read, and after it one raise of Fatal (R170, R272,
R291). -/
theorem tick_readsThenRaises {s t : State} (h : tick s = .next t) : ReadsThenRaises s t := by
  obtain ⟨hf, -, ⟨-, rfl⟩ | ⟨-, ⟨-, h⟩ | ⟨-, h⟩ | ⟨-, rfl⟩ | ⟨-, rfl⟩⟩⟩ := tick_next h
  · exact .of_raises (.inr ⟨.timingLine, hf, SameBus.refl _⟩)
  · exact .of_reads (oamScanTick_readsAtMostOnce h)
  · exact pixelTransferTick_readsThenRaises h
  · obtain ⟨tm, st, e⟩ := hBlankTick_frame s
    rw [e]
    exact .of_reads (.inl ⟨rfl, rfl, rfl, rfl, rfl⟩)
  · obtain ⟨tm, e⟩ := vBlankTick_frame s
    rw [e]
    exact .of_reads (.inl ⟨rfl, rfl, rfl, rfl, rfl⟩)

/-! Well-formed responses -/

/-- A response is one a state may hold on a reply channel (R93, R145, R150, R298). -/
structure Rsp.OkIn (r : Rsp) (s : State) : Prop where
  data : r.status ≠ .okData → r.data = 0
  memError : r.status = .memError → s.cfg.strict = true ∧ r.unsup = true
  malformed : r.status = .malformed → r.unsup = false ∧ s.arb.fatal = true ∧ s.arb.cause = .malformedRequest

/-- Every response on a reply channel is a well-formed one. -/
def State.RepliesOk (s : State) : Prop := ∀ p r, s.arb.reply p = some r → r.OkIn s

/-- On a running block no response is MALFORMED, so a well-formed one stays so whatever becomes of the latch. -/
theorem Rsp.OkIn.of_running {r : Rsp} {s t : State} (h : r.OkIn s) (hf : s.arb.fatal = false) (hc : t.cfg = s.cfg) :
    r.OkIn t where
  data := h.data
  memError hm := hc ▸ h.memError hm
  malformed hm := by
    obtain ⟨-, ht, -⟩ := h.malformed hm
    rw [hf] at ht
    cases ht

theorem State.RepliesOk.of_running {s t : State} (h : s.RepliesOk) (hf : s.arb.fatal = false) (hc : t.cfg = s.cfg)
    (hr : ∀ p, t.arb.reply p = s.arb.reply p) : t.RepliesOk :=
  fun p r hp => (h p r (hr p ▸ hp)).of_running hf hc

theorem State.RepliesOk.of_sameBus {s t : State} (h : s.RepliesOk) (e : SameBus s t) : t.RepliesOk := by
  intro p r hp
  rw [e.arb] at hp
  obtain ⟨hd, he, hm⟩ := h p r hp
  exact ⟨hd, e.cfg ▸ he, e.arb ▸ hm⟩

/-- The response of an operation that carries data with OK_DATA, or none with OK_NO_DATA (R150). -/
theorem answerOf_okIn {c : Config} {st : Status} {u : Bool} {d : Word} {s : State} (hc : s.cfg = c)
    (h : st = .okData ∨ (st = .okNoData ∧ d = 0)) : (answerOf c st u d).OkIn s := by
  unfold answerOf
  split
  next hs =>
    obtain ⟨-, hstrict⟩ := (Bool.and_eq_true _ _).mp hs
    exact ⟨fun _ => rfl, fun _ => ⟨hc ▸ hstrict, rfl⟩, nofun⟩
  next =>
    obtain rfl | ⟨rfl, rfl⟩ := h
    · exact ⟨fun hd => absurd rfl hd, nofun, nofun⟩
    · exact ⟨fun _ => rfl, nofun, nofun⟩

/-- Every operation that runs answers with a well-formed response (R146 to R150). -/
theorem rspOf_okIn (i : Instr) {s t : State} (hc : t.cfg = s.cfg) : (rspOf i s).OkIn t := by
  cases i with
  | rb a => exact answerOf_okIn hc (.inl rfl)
  | rw a => exact answerOf_okIn hc (.inl rfl)
  | wb a v => exact answerOf_okIn hc (.inr ⟨rfl, rfl⟩)
  | ww a w => exact answerOf_okIn hc (.inr ⟨rfl, rfl⟩)

theorem raiseFatal_reply (c : FatalCause) (p : Port) (s : State) :
    (raiseFatal c s).arb.reply p = s.arb.reply p := by
  cases p <;> rfl

theorem enqueueRequest_reply (p q : Port) (w : ReqWord) (s : State) :
    (enqueueRequest p w s).arb.reply q = s.arb.reply q := by
  cases p <;> cases q <;> rfl

/-- A response delivered from a running block, beside the replies that were there before. -/
theorem State.RepliesOk.of_delivered {s t : State} {p : Port} {r : Rsp} (h : s.RepliesOk) (hf : s.arb.fatal = false)
    (hc : t.cfg = s.cfg) (hr : r.OkIn t) (ht : ∀ q, t.arb.reply q = if q = p then some r else s.arb.reply q) :
    t.RepliesOk := by
  intro q r' hq
  rw [ht] at hq
  split at hq
  · cases hq
    exact hr
  · exact (h q r' hq).of_running hf hc

theorem exec_repliesOk {i : Instr} {s t : State} (h : exec i s = .next t) (hs : s.RepliesOk) : t.RepliesOk := by
  obtain ⟨hf, ⟨-, -, rfl⟩ | ⟨-, -, rfl⟩ | ⟨-, rfl⟩⟩ := exec_next _ _ _ h
  · have hc : (respond s.arb.port (rspOf i s) (effectOf i s)).cfg = s.cfg := by simp
    refine hs.of_delivered (p := s.arb.port) hf hc (rspOf_okIn i hc) fun q => ?_
    rw [respond_reply, effectOf_arb]
  · have malformed : Rsp.OkIn ⟨.malformed, false, 0⟩ (failMalformed s.arb.port s) :=
      ⟨fun _ => rfl, nofun, fun _ => ⟨rfl, rfl, rfl⟩⟩
    refine hs.of_delivered (p := s.arb.port) hf (failMalformed_cfg _ _) malformed fun q => ?_
    rw [failMalformed, raiseFatal_reply, respond_reply]
  · refine hs.of_running hf (failSevered_cfg _ _) fun q => ?_
    rw [failSevered, raiseFatal_reply, Arbiter.reply_release]

theorem enqueueRequest_repliesOk (p : Port) (w : ReqWord) {s : State} (hf : s.arb.fatal = false) (h : s.RepliesOk) :
    (enqueueRequest p w s).RepliesOk :=
  h.of_running hf rfl fun q => enqueueRequest_reply p q w s

theorem service_repliesOk {s t : State} (hs : s.RepliesOk) (h : service s = .next t) : t.RepliesOk := by
  obtain ⟨hf, p, rest, -, he⟩ := service_next h
  exact exec_repliesOk he (hs.of_running hf rfl fun q => by cases q <;> rfl)

theorem transact_repliesOk {p : Port} {w : ReqWord} {s t : State} (h : transact p w s = .next t) (hs : s.RepliesOk) :
    t.RepliesOk :=
  transact_keeps State.RepliesOk (fun p w _ hf _ => enqueueRequest_repliesOk p w hf)
    (fun _ _ => service_repliesOk) p w s t h hs

/-- A tick's one read answers well, and its raise of Fatal finds a running block, so no MALFORMED response. -/
theorem tick_repliesOk {s t : State} (h : tick s = .next t) (hs : s.RepliesOk) : t.RepliesOk := by
  obtain ⟨u, hread, hraise⟩ := tick_readsThenRaises h
  have hu : u.RepliesOk := by
    obtain e | ⟨i, v, w, -, e, hr, e'⟩ := hread
    · exact hs.of_sameBus e
    · exact (transact_repliesOk hr (hs.of_sameBus e)).of_sameBus e'
  obtain e | ⟨c, hf, e⟩ := hraise
  · exact hu.of_sameBus e
  · exact (hu.of_running hf (raiseFatal_cfg c u) fun p => raiseFatal_reply c p u).of_sameBus e

theorem hostEvent_repliesOk {f : State → State} {s t : State} (hc : (f s).cfg = s.cfg)
    (hr : ∀ p, (f s).arb.reply p = s.arb.reply p) (h : hostEvent f s = .next t) (hs : s.RepliesOk) : t.RepliesOk := by
  obtain ⟨hf, rfl⟩ := hostEvent_next h
  exact hs.of_running hf hc hr

theorem applyMove_repliesOk {m : Move} {s t : State} (h : applyMove m s = .next t) (hs : s.RepliesOk) :
    t.RepliesOk := by
  cases m with
  | submit p w =>
    obtain ⟨hf, -, rfl⟩ := submit_next h
    exact enqueueRequest_repliesOk p w hf hs
  | submitBoth wP wG =>
    exact submitBoth_keeps (fun p w _ hf _ => enqueueRequest_repliesOk p w hf)
      (fun _ hd => hd.of_sameBus ⟨rfl, rfl, rfl, rfl, rfl⟩) h hs
  | service => exact service_repliesOk hs h
  | transact p w => exact transact_repliesOk h hs
  | tick => exact tick_repliesOk h hs
  | reset =>
    cases h
    intro p r hp
    cases p <;> cases hp
  | loadBoot b => exact hostEvent_repliesOk rfl (fun _ => rfl) h hs
  | loadRom b => exact hostEvent_repliesOk rfl (fun _ => rfl) h hs
  | setInBoot b => exact hostEvent_repliesOk rfl (fun _ => rfl) h hs
  | tileReset => exact hostEvent_repliesOk rfl (fun _ => rfl) h hs
  | sever => exact hostEvent_repliesOk rfl (fun q => by cases q <;> rfl) h hs

/-- A step begins with its reply channels empty (R8, R151). -/
theorem nextMove_reply (s : State) (p : Port) : (nextMove s).2.arb.reply p = none := by
  obtain ⟨ms, d, e⟩ := nextMove_frame s
  rw [e]
  cases p <;> rfl

/-- Settles O25: the step begins with no response, and every move keeps the responses well-formed. -/
theorem responsesAreWellFormed : Obligations.ResponsesAreWellFormed := by
  unfold Obligations.ResponsesAreWellFormed
  intro s t h p r hp
  have begun : (nextMove s).2.RepliesOk := fun q r' hq => by
    rw [nextMove_reply] at hq
    cases hq
  have hcfg : t.cfg = s.cfg := by
    obtain ⟨hc, -⟩ := romAndConfigWriters _ _ _ h
    obtain ⟨ms, d, e⟩ := nextMove_frame s
    rw [hc, e]
    rfl
  obtain ⟨hdata, herror, hmalformed⟩ := applyMove_repliesOk h begun p r hp
  exact ⟨hdata, hcfg ▸ herror, hmalformed⟩

end Sys2Proof.Machine
end

/-! Proofs: a byte read and a byte write, region by region (R121, R122), and the byte read back (V1) -/

section
namespace Sys2Proof.Machine

/-! A byte read, from the region of its address -/

/-- Outside OAM a region with a cell gives the byte of that cell to either port (R121). -/
theorem readByte_of_region {s : State} {a : Addr} {r : Region} {c : Arr × Nat} (p : Port) (hr : s.region a = r)
    (hw : r ≠ .spriteMemory) (hc : cellOf r a = some c) : readByte s p a = (s.mem.read c.1 c.2, false) := by
  subst hr
  unfold readByte
  split
  · rename_i hz
    rw [hz] at hc
    cases hc
  · rename_i hi
    rw [hi] at hc
    cases hc
  · rw [if_neg fun h => hw h.1, hc]

/-- The lock of OAM bears on port P alone (R70, R121). -/
theorem readByte_spriteMemory {s : State} {a : Addr} (p : Port) (hr : s.region a = .spriteMemory) :
    readByte s p a =
      if s.oamLocked = true ∧ p = .portP then (0, true) else (s.mem.read .oam (a.toNat - 0xFE00), false) := by
  simp [readByte, hr, cellOf]

theorem readByte_zeroSink {s : State} {a : Addr} (p : Port) (hr : s.region a = .zeroSink) :
    readByte s p a = (0, false) := by
  simp [readByte, hr]

theorem readByte_ioSink {s : State} {a : Addr} (p : Port) (hr : s.region a = .ioSink) :
    readByte s p a = (ioReadDefault s.cfg a, true) := by
  simp [readByte, hr]

/-- An I/O read gives 0x00 where the configuration lists nothing (R6, R63). -/
theorem ioReadDefault_of_nil {c : Config} (h : c.ioRead = []) (a : Addr) : ioReadDefault c a = 0 := by
  rw [ioReadDefault, h, Sparse.get]
  rfl

/-- Settles O7: the region of each range, and what a read in that region gives. -/
theorem readByteByRegion : Obligations.ReadByteByRegion := by
  unfold Obligations.ReadByteByRegion
  intro s p a
  simp only [toNat_and_0x1FFF, toNat_and_0x7F]
  refine ⟨fun h hb => ?boot,
    fun h hb => readByte_of_region p (regionOf_rom0 _ a h hb) (by decide) rfl,
    fun h1 h2 => readByte_of_region p (regionOf_rom1 _ a h1 h2) (by decide) rfl,
    fun h1 h2 => readByte_of_region p (regionOf_video _ a h1 h2) (by decide) rfl,
    fun h1 h2 => readByte_of_region p (regionOf_externalRam _ a h1 h2) (by decide) rfl,
    fun h1 h2 => ?workRam,
    fun h1 h2 => readByte_spriteMemory p (regionOf_spriteMemory _ a h1 h2),
    fun h1 h2 => readByte_zeroSink p (regionOf_zeroSink _ a h1 h2),
    fun h1 h2 => readByte_ioSink p (regionOf_ioSink _ a h1 h2),
    fun h => ioReadDefault_of_nil h a,
    fun h => readByte_of_region p (regionOf_zeroPage _ a h) (by decide) rfl⟩
  case boot =>
    have hr : s.region a = .boot := by rw [State.region, hb, regionOf_boot a h]
    exact readByte_of_region p hr (by decide) rfl
  case workRam =>
    by_cases h : a.toNat ≤ 0xDFFF
    · exact readByte_of_region p (regionOf_workRam _ a h1 h) (by decide) rfl
    · exact readByte_of_region p (regionOf_workShadow _ a (by omega) h2) (by decide) rfl

/-! A byte write, from the cell its address stores to -/

theorem writeByte_of_storeCell {s : State} {a : Addr} {c : Arr × Nat} (v : Byte) (h : s.storeCell a = some c) :
    writeByte a v s = storeByte c v s := by
  rw [writeByte, h]

/-- A write that stores to no cell is discarded (R122). -/
theorem writeByte_of_storeCell_none {s : State} {a : Addr} (v : Byte) (h : s.storeCell a = none) :
    writeByte a v s = s := by
  rw [writeByte, h]

/-- Below 0x8000 an address names the overlay or one of the ROM regions (R61). -/
theorem region_below_0x8000 {s : State} {a : Addr} (h : a.toNat ≤ 0x7FFF) :
    s.region a = .boot ∨ s.region a = .rom0 ∨ s.region a = .rom1 := by
  by_cases h1 : a.toNat ≤ 0x3FFF
  · by_cases hb : 0xFF < a.toNat ∨ s.inBoot = false
    · exact .inr (.inl (regionOf_rom0 _ a h1 hb))
    · obtain ⟨h0, hb⟩ := not_or.mp hb
      refine .inl ?_
      rw [State.region, Bool.of_not_eq_false hb, regionOf_boot a (by omega)]
  · exact .inr (.inr (regionOf_rom1 _ a (by omega) h))

/-- A write to the overlay or to ROM is discarded with `unsup` set (R122). -/
theorem writeByte_readOnly {s : State} {a : Addr} (v : Byte)
    (h : s.region a = .boot ∨ s.region a = .rom0 ∨ s.region a = .rom1) :
    writeByte a v s = s ∧ s.writeUnsup a = true := by
  obtain hr | hr | hr := h <;>
    exact ⟨writeByte_of_storeCell_none v (by simp [State.storeCell, hr]), by simp [State.writeUnsup, hr]⟩

/-- Outside the overlay, ROM and OAM the I/O range alone sets `unsup` on a write (R122, R297). -/
theorem writeUnsup_of_region {s : State} {a : Addr} {r : Region} (hr : s.region a = r)
    (hw : r ≠ .boot ∧ r ≠ .rom0 ∧ r ≠ .rom1 ∧ r ≠ .spriteMemory) : s.writeUnsup a = decide (r = .ioSink) := by
  cases r <;> simp [State.writeUnsup, hr] at hw ⊢

/-- A RAM region takes the byte in the cell of the address, with `unsup` clear (R122). -/
theorem writeByte_of_region {s : State} {a : Addr} {r : Region} {c : Arr × Nat} (v : Byte) (hr : s.region a = r)
    (hw : r ≠ .boot ∧ r ≠ .rom0 ∧ r ≠ .rom1 ∧ r ≠ .spriteMemory) (hc : cellOf r a = some c) :
    writeByte a v s = storeByte c v s ∧ s.writeUnsup a = false := by
  refine ⟨writeByte_of_storeCell v ((storeCell_of_region hr hw).trans hc), ?_⟩
  rw [writeUnsup_of_region hr hw]
  refine decide_eq_false ?_
  rintro rfl
  cases hc

/-- A sink discards the byte (R63, R122). -/
theorem writeByte_sink {s : State} {a : Addr} {r : Region} (v : Byte) (hr : s.region a = r)
    (hw : r ≠ .boot ∧ r ≠ .rom0 ∧ r ≠ .rom1 ∧ r ≠ .spriteMemory) (hc : cellOf r a = none) :
    writeByte a v s = s ∧ s.writeUnsup a = decide (r = .ioSink) :=
  ⟨writeByte_of_storeCell_none v ((storeCell_of_region hr hw).trans hc), writeUnsup_of_region hr hw⟩

/-- A write to locked OAM is discarded with `unsup` set (R70, R122). -/
theorem writeByte_locked {s : State} {a : Addr} (v : Byte) (hr : s.region a = .spriteMemory)
    (hl : s.oamLocked = true) : writeByte a v s = s ∧ s.writeUnsup a = true :=
  ⟨writeByte_of_storeCell_none v (by simp [storeCell_spriteMemory hr, hl]), by simp [State.writeUnsup, hr, hl]⟩

/-- A write to OAM that is not locked stores the byte at the offset of the address (R70, R122). -/
theorem writeByte_unlocked {s : State} {a : Addr} (v : Byte) (hr : s.region a = .spriteMemory)
    (hl : s.oamLocked = false) :
    writeByte a v s = storeByte (.oam, a.toNat - 0xFE00) v s ∧ s.writeUnsup a = false :=
  ⟨writeByte_of_storeCell v (by simp [storeCell_spriteMemory hr, hl, cellOf]), by simp [State.writeUnsup, hr, hl]⟩

/-- Settles O8: the region of each range, and what a write in that region does; storeByte of a cell outside video memory
is the store alone. -/
theorem writeByteByRegion : Obligations.WriteByteByRegion := by
  unfold Obligations.WriteByteByRegion
  intro s a v
  simp only [toNat_and_0x1FFF, toNat_and_0x7F]
  refine ⟨fun h => writeByte_readOnly v (region_below_0x8000 h),
    fun h1 h2 => writeByte_of_region v (regionOf_video _ a h1 h2) (by decide) rfl,
    fun h1 h2 => writeByte_of_region v (regionOf_externalRam _ a h1 h2) (by decide) rfl,
    fun h1 h2 => ?workRam,
    fun h1 h2 hl => writeByte_locked v (regionOf_spriteMemory _ a h1 h2) hl,
    fun h1 h2 hl => writeByte_unlocked v (regionOf_spriteMemory _ a h1 h2) hl,
    fun h1 h2 => writeByte_sink v (regionOf_zeroSink _ a h1 h2) (by decide) rfl,
    fun h1 h2 => writeByte_sink v (regionOf_ioSink _ a h1 h2) (by decide) rfl,
    fun h => writeByte_of_region v (regionOf_zeroPage _ a h) (by decide) rfl⟩
  case workRam =>
    by_cases h : a.toNat ≤ 0xDFFF
    · exact writeByte_of_region v (regionOf_workRam _ a h1 h) (by decide) rfl
    · exact writeByte_of_region v (regionOf_workShadow _ a (by omega) h2) (by decide) rfl

/-! The byte read back -/

/-- Settles O10: the read goes to the cell in which the write left the byte. -/
theorem byteRoundTrip : Obligations.ByteRoundTrip := by
  unfold Obligations.ByteRoundTrip
  intro s p a v hw
  obtain ⟨c, hc⟩ := storeCell_of_writable hw
  rw [readByte_of_storeCell p (by rw [writeByte_storeCell, hc]), writeByte_read, if_pos hc]

end Sys2Proof.Machine
end

/-! Proofs: on a running block the graphics tick completes (R157, R170) -/

section
namespace Sys2Proof.Machine

/-- A port-G read on an idle port is answered at once and leaves the port idle (R142, R152). -/
theorem busReadG_idle {i : Instr} {s : State} (hi : isReadOp i = true) (hw : i.wellFormed = true) (h : s.PortGIdle) :
    ∃ t, busReadG i s = .next t ∧ t.PortGIdle := by
  obtain ⟨hf, ha, hq, hv⟩ := h
  have read : i = .rb i.addrField ∨ (i = .rw i.addrField ∧ i.wellFormed = true) := by
    cases i with
    | rb a => exact .inl rfl
    | rw a => exact .inr ⟨rfl, hw⟩
    | wb a v => cases hi
    | ww a w => cases hi
  obtain ⟨b, hb, hbf, hba, hbq, hbv, -⟩ :=
    busReadG_runs i.addrField s hf ha hq hv i read (decode_encode_of_isReadOp hi)
  exact ⟨_, hb, hbf, hba, hbq, hbv⟩

/-- A port-G read and a change outside the arbiter after it complete on an idle port. -/
theorem readThen_idle {i : Instr} {f : State → State} {s : State} (hi : isReadOp i = true) (hw : i.wellFormed = true)
    (hf : ∀ u, (f u).arb = u.arb) (h : s.PortGIdle) :
    ∃ t, thenRun (busReadG i s) (fun u => .next (f u)) = .next t ∧ t.PortGIdle := by
  obtain ⟨u, hu, idle⟩ := busReadG_idle hi hw h
  refine ⟨f u, by rw [hu, thenRun_of_running idle.1], ?_⟩
  rw [State.PortGIdle, hf]
  exact idle

/-- The fetch stage reads at most one byte, for which every address is legal (R146, R233). -/
theorem fetchStage_idle {s : State} (h : s.PortGIdle) : ∃ t, fetchStage s = .next t ∧ t.PortGIdle := by
  unfold fetchStage
  split
  · exact ⟨s, rfl, h⟩
  · split
    · exact readThen_idle (f := fun u => gotTileNo (lowByte (replyDataG u)) u) rfl rfl (fun _ => rfl) h
    · exact ⟨_, rfl, h⟩
  · split
    · exact readThen_idle (f := fun u => gotByte0 (lowByte (replyDataG u)) u) rfl rfl (fun _ => rfl) h
    · exact ⟨_, rfl, h⟩
  · split
    · exact readThen_idle (f := fun u => gotByte1 (lowByte (replyDataG u)) u) rfl rfl (fun _ => rfl) h
    · exact ⟨_, rfl, h⟩

/-- A visible sprite overlays eight valid slots without a raise of Fatal (R240, R242). -/
theorem overlay_idle {n : Fin 40} {s : State} (hv : ∀ k : Fin 16, k.val < 8 → s.pipe.fifo[k].valid = true)
    (hn : spriteVisible s.sprites.recs[n] s.timer.line.toNat = true) (h : s.PortGIdle) :
    ∃ t, overlay n s = .next t ∧ t.PortGIdle := by
  have eight : ∀ k ∈ ([0, 1, 2, 3, 4, 5, 6, 7] : List (Fin 16)), k.val < 8 := by decide
  obtain ⟨t, ht, ha⟩ := overlayFrom_runs n [0, 1, 2, 3, 4, 5, 6, 7] s h.1 (fun k hk => hv k (eight k hk))
    (spriteRow_isSome _ _ hn)
  refine ⟨t, ht, ?_⟩
  rw [State.PortGIdle, ha]
  exact h

/-- Every listed sprite is visible on the current line (R214). -/
def State.ListedVisible (s : State) : Prop :=
  ∀ n ∈ s.sprites.vis, spriteVisible s.sprites.recs[n] s.timer.line.toNat = true

/-- The sprite the overlay stage takes is a listed one (R239). -/
theorem overlayStage_idle {s : State} (hv : ∀ k : Fin 16, k.val < 8 → s.pipe.fifo[k].valid = true)
    (hn : s.ListedVisible) (h : s.PortGIdle) :
    ∃ t, overlayStage s = .next t ∧ t.PortGIdle := by
  unfold overlayStage
  split
  next n hfind =>
    obtain ⟨u, hu, idle⟩ := overlay_idle hv (hn n (List.mem_of_find?_eq_some hfind)) h
    exact ⟨consume n u, by rw [hu, thenRun_of_running idle.1], idle⟩
  next => exact ⟨s, rfl, h⟩

/-- Behind the gate more than eight slots are valid, so the overlay finds its eight (R34 d, R238). -/
theorem emitStage_idle {s : State} (hp : s.pipe.Ok) (hn : s.ListedVisible) (h : s.PortGIdle) :
    ∃ t, emitStage s = .next t ∧ t.PortGIdle := by
  unfold emitStage
  split
  next hgate =>
    obtain ⟨hvalid, -, -⟩ := hp
    have hcount : 8 < s.pipe.count.toNat := hgate
    obtain ⟨u, hu, idle⟩ := overlayStage_idle
      (fun k hk => (hvalid k).trans (decide_eq_true (by omega))) hn h
    exact ⟨pushStage u, by rw [hu, thenRun_of_running idle.1], idle⟩
  next => exact ⟨s, rfl, h⟩

theorem dot_idle {s : State} (hp : s.pipe.Wf) (hn : s.ListedVisible) (h : s.PortGIdle) :
    ∃ t, dot s = .next t ∧ t.PortGIdle := by
  unfold dot
  split
  · exact ⟨s, rfl, h⟩
  · obtain ⟨u, hu, idle⟩ := fetchStage_idle h
    have fr := fetchStage_frame hu
    rw [hu, thenRun_of_running idle.1]
    refine emitStage_idle (enqueuePipe_wf u.pipe (fr.sameLevels.wf hp)).ok ?_ idle
    show u.ListedVisible
    rw [State.ListedVisible, fr.sprites, fr.timer]
    exact hn

/-- The word the scan reads stands at an even address, so it is never the malformed one (R145, R212). -/
theorem scanAddr_wellFormed (c : Nat) : (Instr.rw (scanAddr c)).wellFormed = true := by
  have even : (scanAddr c).toNat % 2 = 0 := by
    simp only [scanAddr, BitVec.toNat_ofNat]
    omega
  refine decide_eq_true fun e => ?_
  rw [e] at even
  cases even

theorem oamScanTick_idle {s : State} (h : s.PortGIdle) : ∃ t, oamScanTick s = .next t ∧ t.PortGIdle := by
  have started : (if s.timer.counter = 0 then newLine s else s).PortGIdle := by
    split
    · exact h
    · exact h
  obtain ⟨u, hu, idle⟩ := readThen_idle (i := .rw (scanAddr s.timer.counter.toNat))
    (f := fun u => loadScanned s.timer.counter.toNat (replyDataG u) u) rfl (scanAddr_wellFormed _)
    (fun _ => loadScanned_arb _ _ _) started
  unfold oamScanTick scanStep
  rw [hu, thenRun_of_running idle.1]
  refine ⟨_, rfl, ?_⟩
  split
  · exact idle
  · exact idle

theorem pixelTransferTick_idle {s : State} (hp : s.pipe.Wf) (hn : s.ListedVisible) (h : s.PortGIdle) :
    ∃ t, pixelTransferTick s = .next t ∧ t.PortGIdle := by
  obtain ⟨u, hu, idle⟩ := dot_idle hp hn h
  unfold pixelTransferTick
  rw [hu, thenRun_of_running idle.1]
  refine ⟨_, rfl, ?_⟩
  split
  · exact idle
  · exact idle

/-- In every mode the tick completes, with the graphics port idle again (R157, R170). -/
theorem modeTick_idle {s : State} (hp : s.pipe.Wf) (hn : s.SelectedVisible) (h : s.PortGIdle) :
    ∃ t, modeTick s = .next t ∧ t.PortGIdle := by
  unfold modeTick
  split
  next => exact oamScanTick_idle h
  next hmode => exact pixelTransferTick_idle hp (hn hmode) h
  next =>
    obtain ⟨tm, st, e⟩ := hBlankTick_frame s
    exact ⟨_, rfl, e ▸ h⟩
  next =>
    obtain ⟨tm, e⟩ := vBlankTick_frame s
    exact ⟨_, rfl, e ▸ h⟩

/-- With the queue empty no latch is valid (R34 g). -/
theorem Arbiter.Ok.req_valid_of_empty {b : Arbiter} (h : b.Ok) (hq : b.queue = []) (p : Port) :
    (b.req p).valid = false := by
  obtain ⟨-, hr, -⟩ := (Arbiter.ok_iff b).mp h
  refine Bool.eq_false_iff.mpr fun hv => ?_
  have hm := (hr p).mp hv
  rw [hq] at hm
  cases hm

/-- Settles O39: the tick of every mode completes with the port idle, and a tick keeps the invariants. -/
theorem ticksKeepRunning : Obligations.TicksKeepRunning := by
  unfold Obligations.TicksKeepRunning
  rintro s ⟨hf, ha, hq, hinv, hvis⟩
  obtain ⟨hbus, hdisplay⟩ := (State.inv_iff s).mp hinv
  obtain ⟨hline, -⟩ := hdisplay.timer
  have free := hbus.arb.req_valid_of_empty hq
  obtain ⟨t, ht, hft, hat, hqt, -⟩ := modeTick_idle hdisplay.pipe hvis ⟨hf, ha, hq, free .portG⟩
  rw [← tick_runs s hf ⟨free .portP, free .portG, hq⟩ hline] at ht
  exact ⟨t, ht, hft, hat, hqt, applyMove_inv (m := .tick) ht hinv, tick_selectedVisible ht hvis⟩

end Sys2Proof.Machine
end

/-! Proofs: the four bus operations on a live block, malformed, severed and after a fatal fault (R145 to R156, R291) -/

section
namespace Sys2Proof.Machine

/-! What an operation leaves on each port -/

theorem raiseFatal_req (c : FatalCause) (p : Port) (s : State) : (raiseFatal c s).arb.req p = s.arb.req p := by
  cases p <;> rfl

theorem failMalformed_reply (p q : Port) (s : State) :
    (failMalformed p s).arb.reply q = if q = p then some ⟨.malformed, false, 0⟩ else s.arb.reply q := by
  rw [failMalformed, raiseFatal_reply, respond_reply]

theorem failSevered_reply (p q : Port) (s : State) : (failSevered p s).arb.reply q = s.arb.reply q := by
  rw [failSevered, raiseFatal_reply, Arbiter.reply_release]

/-- On a block with nothing fatal every operation answers a next state (R144). -/
theorem exec_answers (i : Instr) {s : State} (hf : s.arb.fatal = false) : ∃ t, exec i s = .next t := by
  cases ha : s.arb.alive with
  | false => exact ⟨_, exec_severed i s hf ha⟩
  | true =>
    cases hw : i.wellFormed with
    | false => exact ⟨_, exec_malformed i s hf ha hw⟩
    | true => exact ⟨_, exec_runs i s hf ha hw⟩

/-- However an operation ends, it takes the request of the served port and no other (R144, R145, R156). -/
theorem exec_req {i : Instr} {s t : State} (h : exec i s = .next t) (q : Port) :
    t.arb.req q = if q = s.arb.port then { s.arb.req q with valid := false } else s.arb.req q := by
  obtain ⟨-, ⟨-, -, rfl⟩ | ⟨-, -, rfl⟩ | ⟨-, rfl⟩⟩ := exec_next _ _ _ h
  · rw [respond_req, effectOf_arb]
  · rw [failMalformed, raiseFatal_req, respond_req]
  · rw [failSevered, raiseFatal_req, Arbiter.req_release]

/-- However an operation ends, it answers on no port but the served one (R151). -/
theorem exec_reply_of_ne {i : Instr} {s t : State} (h : exec i s = .next t) {q : Port} (hq : q ≠ s.arb.port) :
    t.arb.reply q = s.arb.reply q := by
  obtain ⟨-, ⟨-, -, rfl⟩ | ⟨-, -, rfl⟩ | ⟨-, rfl⟩⟩ := exec_next _ _ _ h
  · rw [respond_reply, if_neg hq, effectOf_arb]
  · rw [failMalformed_reply, if_neg hq]
  · rw [failSevered_reply]

/-- On a live channel every operation, a malformed one too, answers the served port (R145, R151). -/
theorem exec_reply_of_alive {i : Instr} {s t : State} (h : exec i s = .next t) (ha : s.arb.alive = true) :
    ∃ r, t.arb.reply s.arb.port = some r := by
  obtain ⟨-, ⟨-, -, rfl⟩ | ⟨-, -, rfl⟩ | ⟨hsevered, -⟩⟩ := exec_next _ _ _ h
  · exact ⟨_, (respond_reply _ _ _ _).trans (if_pos rfl)⟩
  · exact ⟨_, (failMalformed_reply _ _ _).trans (if_pos rfl)⟩
  · rw [ha] at hsevered
    cases hsevered

/-- On a severed channel no operation answers any port (R156). -/
theorem exec_reply_of_severed {i : Instr} {s t : State} (h : exec i s = .next t) (ha : s.arb.alive = false)
    (q : Port) : t.arb.reply q = s.arb.reply q := by
  obtain ⟨hf, -⟩ := exec_next _ _ _ h
  rw [exec_severed i s hf ha] at h
  cases h
  exact failSevered_reply _ q s

/-! The operations that run (R146 to R150) -/

/-- The response is the one of R150. -/
theorem answerOf_eq_rspGiven (c : Config) (st : Status) (u : Bool) (d : Word) :
    answerOf c st u d = rspGiven c.strict st u d := by
  simp [answerOf, rspGiven]

/-- An operation with which the block goes on leaves the frame of a service (R71, R144, R151). -/
theorem exec_servedFrame {i : Instr} {s t : State} (h : exec i s = .next t) (hf : t.arb.fatal = false) :
    ServedFrame s t := by
  obtain ⟨hcfg, hinBoot, htimer, hsprites, hpipe, hfb, hstrobes, hmoves, hdraws, hqueue, hport, hstamp, halive⟩ :=
    exec_frame i s t h
  obtain ⟨hfatal, hcause⟩ : t.arb.fatal = s.arb.fatal ∧ t.arb.cause = s.arb.cause := by
    obtain ⟨-, -, -, rfl⟩ := exec_next_running i s t h hf
    simp
  exact ⟨hcfg, hinBoot, htimer, hsprites, hpipe, hfb, hstrobes, hmoves, hdraws, hqueue, halive, hfatal, hcause, hport,
    hstamp, exec_req h, fun q hq => exec_reply_of_ne h hq⟩

/-- A well-formed operation on a live block completes with its response and its effect, and changes nothing else. -/
theorem exec_completes (i : Instr) {s : State} (hf : s.arb.fatal = false) (ha : s.arb.alive = true)
    (hw : i.wellFormed = true) :
    ∃ t, exec i s = .next t ∧ t.arb.reply s.arb.port = some (rspOf i s) ∧ t.mem = (effectOf i s).mem ∧
      t.tile = (effectOf i s).tile ∧ ServedFrame s t := by
  have he := exec_runs i s hf ha hw
  exact ⟨_, he, (respond_reply _ _ _ _).trans (if_pos rfl), rfl, rfl, exec_servedFrame he (by simpa using hf)⟩

/-- A byte write that stores to no cell of video memory leaves every tile row (R191). -/
theorem writeByte_tile_of_not_vram {a : Addr} {s : State} (v : Byte) (h : ∀ k, s.storeCell a ≠ some (.vram, k)) :
    (writeByte a v s).tile = s.tile := by
  cases hc : s.storeCell a with
  | none => rw [writeByte_of_storeCell_none v hc]
  | some c =>
    rw [writeByte_of_storeCell v hc, storeByte_tile, if_neg]
    intro hv
    exact h c.2 (by rw [hc, ← hv])

/-- A word write that stores to no cell of video memory leaves every tile row (R124, R191). -/
theorem writeWord_tile_of_not_vram {a : Addr} {s : State} (w : Word) (h : ∀ k, s.storeCell a ≠ some (.vram, k))
    (h' : ∀ k, s.storeCell (nextAddr a) ≠ some (.vram, k)) : (writeWord a w s).tile = s.tile := by
  rw [writeWord, writeByte_tile_of_not_vram _ (by simpa only [writeByte_storeCell] using h'),
    writeByte_tile_of_not_vram _ h]

/-- Settles O17: a byte read is well-formed at every address, and has no effect on the storage. -/
theorem readByteCompletes : Obligations.ReadByteCompletes := by
  unfold Obligations.ReadByteCompletes
  intro a s hf ha
  obtain ⟨t, ht, hreply, hmem, htile, hframe⟩ := exec_completes (.rb a) hf ha rfl
  rw [rspOf, answerOf_eq_rspGiven] at hreply
  exact ⟨t, ht, hreply, hmem, htile, hframe⟩

/-- Settles O18: a word read is well-formed at every address but 0xFFFF, and has no effect on the storage. -/
theorem readWordCompletes : Obligations.ReadWordCompletes := by
  unfold Obligations.ReadWordCompletes
  intro a s hne hf ha
  obtain ⟨t, ht, hreply, hmem, htile, hframe⟩ := exec_completes (.rw a) hf ha (decide_eq_true hne)
  rw [rspOf, answerOf_eq_rspGiven] at hreply
  exact ⟨t, ht, hreply, hmem, htile, hframe⟩

/-- Settles O19: a byte write is well-formed at every address, and its effect is the store in its one cell. -/
theorem writeByteCompletes : Obligations.WriteByteCompletes := by
  unfold Obligations.WriteByteCompletes
  intro a v s hf ha
  obtain ⟨t, ht, hreply, hmem, htile, hframe⟩ := exec_completes (.wb a v) hf ha rfl
  rw [rspOf, answerOf_eq_rspGiven] at hreply
  rw [effectOf] at hmem htile
  refine ⟨t, ht, hreply, fun b k hc => ?_, fun b k hc => ?_, htile, fun hc => ?_, hframe⟩
  · rw [hmem, writeByte_read, if_pos hc]
  · rw [hmem, writeByte_read, if_neg hc]
  · rw [htile, writeByte_tile_of_not_vram v hc]

/-- Settles O20: a word write is well-formed at every address but 0xFFFF, and its two bytes go to two different cells. -/
theorem writeWordCompletes : Obligations.WriteWordCompletes := by
  unfold Obligations.WriteWordCompletes
  intro a w s hne hf ha
  obtain ⟨t, ht, hreply, hmem, htile, hframe⟩ := exec_completes (.ww a w) hf ha (decide_eq_true hne)
  rw [rspOf, answerOf_eq_rspGiven] at hreply
  rw [effectOf] at hmem htile
  have read : ∀ b k, t.mem.read b k =
      if s.storeCell (a + 1) = some (b, k) then highByte w
      else if s.storeCell a = some (b, k) then lowByte w else s.mem.read b k := by
    intro b k
    rw [hmem, writeWord_read, nextAddr]
  refine ⟨t, ht, hreply, fun b k hlo => ?_, fun b k hhi => ?_, fun b k hlo hhi => ?_, htile, fun hlo hhi => ?_, hframe⟩
  · exact (read b k).trans ((if_neg (storeCell_nextAddr_ne hlo)).trans (if_pos hlo))
  · exact (read b k).trans (if_pos hhi)
  · exact (read b k).trans ((if_neg hhi).trans (if_neg hlo))
  · rw [htile, writeWord_tile_of_not_vram w hlo hhi]

/-! The operations that fail (R145, R155, R156) -/

/-- The malformed requests are the two word operations at 0xFFFF (R145). -/
theorem wellFormed_eq_false_iff (i : Instr) :
    i.wellFormed = false ↔ i = .rw 0xFFFF ∨ ∃ w, i = .ww 0xFFFF w := by
  cases i <;> simp [Instr.wellFormed]

/-- An operation that runs never answers MALFORMED (R150). -/
theorem rspOf_status_ne_malformed (i : Instr) {s : State} (hf : s.arb.fatal = false) :
    (rspOf i s).status ≠ .malformed := by
  intro hm
  obtain ⟨-, hfatal, -⟩ := (rspOf_okIn i (t := s) rfl).malformed hm
  rw [hf] at hfatal
  cases hfatal

/-- Settles O21: a malformed operation fails with the latch set, and any other one on a live block runs. -/
theorem malformedRequestIsFatal : Obligations.MalformedRequestIsFatal := by
  unfold Obligations.MalformedRequestIsFatal
  refine ⟨fun i s hi hf ha => ?_, fun i s t hrw hww ha h => ?_⟩
  · have he := exec_malformed i s hf ha ((wellFormed_eq_false_iff i).mpr hi)
    have hv := exec_req_valid he s.arb.port
    rw [if_pos rfl] at hv
    exact ⟨_, he, rfl, rfl, (failMalformed_reply _ _ _).trans (if_pos rfl), hv, rfl⟩
  · have hw : i.wellFormed = true := by
      refine Bool.of_not_eq_false fun hw => ?_
      obtain e | ⟨w, e⟩ := (wellFormed_eq_false_iff i).mp hw
      · exact hrw e
      · exact hww w e
    obtain ⟨hf, -⟩ := exec_next i s t h
    rw [exec_runs i s hf ha hw] at h
    cases h
    exact ⟨by simpa using hf, _, (respond_reply _ _ _ _).trans (if_pos rfl), rspOf_status_ne_malformed i hf⟩

/-- Settles O22: on a severed channel an operation only raises Fatal and gives up its latch. -/
theorem severedRequestIsFatal : Obligations.SeveredRequestIsFatal := by
  unfold Obligations.SeveredRequestIsFatal
  intro i s hf ha
  have hreply := failSevered_reply s.arb.port
  exact ⟨_, exec_severed i s hf ha, rfl, rfl, hreply .portP s, hreply .portG s, rfl⟩

section fatal

variable {s : State} (hf : s.arb.fatal = true)
include hf

theorem submit_fatal (p : Port) (w : ReqWord) : submit p w s = .fault .fatalLatched := by
  rw [submit, if_pos hf]

theorem submitBoth_fatal (wP wG : ReqWord) : submitBoth wP wG s = .fault .fatalLatched := by
  have first : ∀ p w k, thenRun (submit p w { s with draws := s.draws + 1 }) k = .fault .fatalLatched := by
    intro p w k
    rw [submit_fatal (s := { s with draws := s.draws + 1 }) hf, thenRun]
  unfold submitBoth
  simp only
  split
  · exact first _ _ _
  · exact first _ _ _

theorem service_fatal : service s = .fault .fatalLatched := by
  rw [service, if_pos hf]

theorem transact_fatal (p : Port) (w : ReqWord) : transact p w s = .fault .fatalLatched := by
  rw [transact, submit_fatal hf, thenRun]

theorem tick_fatal : tick s = .fault .fatalLatched := by
  rw [tick, if_pos hf]

theorem hostEvent_fatal (f : State → State) : hostEvent f s = .fault .fatalLatched := by
  rw [hostEvent, if_pos hf]

end fatal

/-- Settles O23: every operation and every move but reset tests the latch first, and reset clears it. -/
theorem fatalStopsEverything : Obligations.FatalStopsEverything := by
  unfold Obligations.FatalStopsEverything
  intro s hf
  refine ⟨fun i => exec_fatal i s hf, fun m hm => ?_, _, rfl, rfl⟩
  cases m with
  | submit p w => exact submit_fatal hf p w
  | submitBoth wP wG => exact submitBoth_fatal hf wP wG
  | service => exact service_fatal hf
  | transact p w => exact transact_fatal hf p w
  | tick => exact tick_fatal hf
  | reset => exact absurd rfl hm
  | loadBoot b | loadRom b | setInBoot b | tileReset | sever => exact hostEvent_fatal hf _

/-! The raw form (R107, R154) -/

/-- Settles O5: a response's status alone selects the raw result, and each raw call names its operation. -/
theorem rawFormMap : Obligations.RawFormMap := by
  unfold Obligations.RawFormMap
  exact ⟨fun _ _ _ => rfl, fun _ _ _ => rfl, fun _ _ _ => ⟨rfl, rfl, rfl⟩, fun _ _ _ => rfl, fun _ => rfl, fun _ => rfl,
    fun _ _ => rfl, fun _ _ => rfl⟩

end Sys2Proof.Machine
end

/-! Proofs: submit, arrival order and service (R141 to R144, R151, R158) -/

section
namespace Sys2Proof.Machine

/-! Submit -/

theorem submit_blocked {p : Port} {s : State} (w : ReqWord) (hf : s.arb.fatal = false)
    (hv : (s.arb.req p).valid = true) : submit p w s = .fault (.portBlocked p) := by
  simp [submit, hf, hv]

/-- A tick waits for the request that is outstanding (R142, R158). -/
theorem tick_blocked {p : Port} {s : State} (hf : s.arb.fatal = false) (hp : s.pendingPort? = some p) :
    tick s = .fault (.portBlocked p) := by
  simp [tick, hf, hp]

/-- Settles O26: the submitted word stands in the port's latch, and the port at the end of the queue. -/
theorem submitFillsLatch : Obligations.SubmitFillsLatch := by
  unfold Obligations.SubmitFillsLatch
  intro p w s hf hv
  have hreq := enqueueRequest_req p p w s
  rw [if_pos rfl] at hreq
  refine ⟨enqueueRequest p w s, submit_runs p w s hf hv, ?_⟩
  rw [hreq]
  refine ⟨rfl, rfl, rfl, rfl, fun q hq => ?_, ?_⟩
  · rw [enqueueRequest_req, if_neg hq]
  · cases p <;> rfl

/-- Settles O27: a valid latch blocks its port and the tick, and an empty queue leaves nothing to service. -/
theorem blockedStepsNotEnabled : Obligations.BlockedStepsNotEnabled := by
  unfold Obligations.BlockedStepsNotEnabled
  intro s hf
  refine ⟨fun p w hv => ⟨submit_blocked w hf hv, ?_⟩, fun hG => ?_, fun hG hP => ?_, fun hq => ?_⟩
  · show transact p w s = _
    rw [transact, submit_blocked w hf hv, thenRun]
  · exact tick_blocked hf (by rw [State.pendingPort?, if_pos hG])
  · exact tick_blocked hf (by simp [State.pendingPort?, hG, hP])
  · show service s = _
    simp [service, hf, hq]

/-! Arrival order -/

/-- Two submits on different ports are both pending, in the queue and by their stamps in the order they came (R141,
R143). -/
theorem submit_then_submit {p q : Port} {s : State} (w w' : ReqWord) (hqp : q ≠ p) (hf : s.arb.fatal = false)
    (hp : (s.arb.req p).valid = false) (hq : (s.arb.req q).valid = false) :
    ∃ t, thenRun (submit p w s) (submit q w') = .next t ∧ (t.arb.req p).valid = true ∧ (t.arb.req q).valid = true ∧
      (t.arb.req p).word = w ∧ (t.arb.req q).word = w' ∧
      t.arb.queue = s.arb.queue ++ [p, q] ∧ (t.arb.req p).stamp < (t.arb.req q).stamp := by
  have hf' : (enqueueRequest p w s).arb.fatal = false := by simpa using hf
  have hq' : ((enqueueRequest p w s).arb.req q).valid = false := by rw [enqueueRequest_req, if_neg hqp, hq]
  refine ⟨enqueueRequest q w' (enqueueRequest p w s), ?_, ?_⟩
  · rw [submit_runs p w s hf hp, thenRun_of_running hf', submit_runs q w' _ hf' hq']
  · have first : (enqueueRequest q w' (enqueueRequest p w s)).arb.req p = latchOf w s.arb.nextStamp := by
      rw [enqueueRequest_req, if_neg hqp.symm, enqueueRequest_req, if_pos rfl]
    have second : (enqueueRequest q w' (enqueueRequest p w s)).arb.req q = latchOf w' (s.arb.nextStamp + 1) := by
      rw [enqueueRequest_req, if_pos rfl, enqueueRequest_arb]
    rw [first, second, latchOf_word, latchOf_word]
    exact ⟨rfl, rfl, rfl, rfl, by simp, Nat.lt_succ_self _⟩

/-- Settles O31: the two submits follow each other in the order TIE_BREAK gives, on ports that are both free. -/
theorem simultaneousArrivals : Obligations.SimultaneousArrivals := by
  unfold Obligations.SimultaneousArrivals
  intro wP wG s hf hP hG
  show ∃ t, submitBoth wP wG s = .next t ∧ _
  unfold submitBoth
  simp only
  cases Config.tieBreak s.draws with
  | portP =>
    obtain ⟨t, ht, validP, validG, wordP, wordG, order⟩ :=
      submit_then_submit (p := .portP) (q := .portG) (s := { s with draws := s.draws + 1 }) wP wG (by decide) hf hP hG
    exact ⟨t, ht, validP, validG, wordP, wordG, fun _ => order, nofun⟩
  | portG =>
    obtain ⟨t, ht, validG, validP, wordG, wordP, order⟩ :=
      submit_then_submit (p := .portG) (q := .portP) (s := { s with draws := s.draws + 1 }) wG wP (by decide) hf hG hP
    exact ⟨t, ht, validP, validG, wordP, wordG, nofun, fun _ => order⟩

/-- A transaction behind the other port's request executes that request first, then services its own (R143). -/
theorem transact_behind {p q : Port} {s : State} (w : ReqWord) (hqp : q ≠ p) (hf : s.arb.fatal = false)
    (hq : s.arb.queue = [q]) (hv : (s.arb.req p).valid = false) :
    transact p w s = thenRun (exec (decode (s.arb.req q).word) (takeHead q [p] (enqueueRequest p w s))) service := by
  have hf' : (enqueueRequest p w s).arb.fatal = false := by simpa using hf
  have hq' : (enqueueRequest p w s).arb.queue = [q, p] := by simp [hq]
  have own : serviceUntil p [p] = service := by
    funext u
    rw [serviceUntil, if_pos rfl]
  rw [transact, submit_runs p w s hf hv, thenRun_of_running hf', hq', serviceUntil, if_neg hqp, own,
    service_runs _ q [p] hf' hq', enqueueRequest_req, if_neg hqp]

/-- What a submit and the removal of the earlier request from the queue leave of the arbiter (R141, R143). -/
theorem takeHead_enqueueRequest_behind {p q : Port} (w : ReqWord) (s : State) (hqp : q ≠ p)
    (hf : s.arb.fatal = false) {u : State} (hu : u = takeHead q [p] (enqueueRequest p w s)) :
    u.arb.fatal = false ∧ u.arb.alive = s.arb.alive ∧ u.arb.cause = s.arb.cause ∧ u.arb.port = q ∧ u.arb.queue = [p] ∧
      u.arb.req q = s.arb.req q ∧ (u.arb.req p).valid = true ∧ (u.arb.req p).word = w ∧
      u.arb.replyP = s.arb.replyP ∧ u.arb.replyG = s.arb.replyG ∧ u = { s with arb := u.arb } := by
  subst hu
  have hreq := enqueueRequest_req p p w s
  rw [if_pos rfl] at hreq
  refine ⟨by simpa using hf, by simp, by simp, rfl, rfl, ?_, ?_, ?_, enqueueRequest_reply p .portP w s,
    enqueueRequest_reply p .portG w s, rfl⟩
  · rw [takeHead_req, enqueueRequest_req, if_neg hqp]
  · rw [takeHead_req, hreq, latchOf]
  · rw [takeHead_req, hreq, latchOf_word]

/-- Settles O30: the earlier request leaves the port's own latch and the rest of the queue as they are. -/
theorem arrivalOrderIsServiceOrder : Obligations.ArrivalOrderIsServiceOrder := by
  unfold Obligations.ArrivalOrderIsServiceOrder
  intro p q w s hqp hf hq hv
  obtain ⟨u, hu⟩ : ∃ u, u = takeHead q [p] (enqueueRequest p w s) := ⟨_, rfl⟩
  have taken := takeHead_enqueueRequest_behind w s hqp hf hu
  have ⟨hfu, _, _, hport, hqueue, _, _, hword, _⟩ := taken
  obtain ⟨v, he⟩ := exec_answers (decode (s.arb.req q).word) hfu
  have run := transact_behind w hqp hf hq hv
  rw [← hu, he] at run
  refine ⟨u, v, hu, taken, he, fun hfv => ?_, fun hfv => ?_⟩
  · rw [run, thenRun_of_fatal hfv]
  · obtain ⟨-, -, -, -, -, -, -, -, -, hqv, -⟩ := exec_frame _ _ _ he
    have hpv : v.arb.req p = u.arb.req p := by rw [exec_req he, hport, if_neg hqp.symm]
    rw [run, thenRun_of_running hfv, service_runs v p [] hfv (hqv.trans hqueue), hpv, hword]
    rfl

/-! Response delivery -/

/-- Settles O32: the operation is executed for the port at the head of the queue, and answers that port alone. -/
theorem replyGoesToRequester : Obligations.ReplyGoesToRequester := by
  unfold Obligations.ReplyGoesToRequester
  intro s t p q hq h
  obtain ⟨hf, -⟩ := service_next h
  rw [service_runs s p q hf hq] at h
  have hreply : ∀ x, (takeHead p q s).arb.reply x = s.arb.reply x := fun x => by cases x <;> rfl
  have hreq := exec_req h
  simp only [takeHead_req] at hreq
  obtain ⟨-, -, -, -, -, -, -, -, -, hqueue, -⟩ := exec_frame _ _ _ h
  refine ⟨fun x hx => ⟨?_, (hreq x).trans (if_neg hx)⟩, fun ha => exec_reply_of_alive h ha, fun ha => ?_, fun _ => ?_,
    hqueue⟩
  · rw [exec_reply_of_ne h hx, hreply]
  · rw [exec_reply_of_severed h ha, hreply]
  · rw [hreq p]
    exact congrArg Latch.valid (if_pos rfl)

end Sys2Proof.Machine
end

/-! Proofs: the graphics tick of each mode (R170 to R175, R178, R294) -/

section
namespace Sys2Proof.Machine

/-- Settles O45: with nothing outstanding the line check is the first thing a tick does. -/
theorem lineOutOfRangeIsFatal : Obligations.LineOutOfRangeIsFatal := by
  unfold Obligations.LineOutOfRangeIsFatal
  intro s hf hp hl
  simp [tick, hf, (pendingPort?_none s).mpr hp, hl, raiseFatal]

/-- The tick reaches the budget when the counter stands at its last value or above (R170, R295). -/
theorem budgetReached_iff (b : Nat) (s : State) : budgetReached b s = true ↔ b ≤ s.timer.counter.toNat + 1 :=
  decide_eq_true_iff

theorem not_budgetReached_iff (b : Nat) (s : State) : ¬ budgetReached b s = true ↔ s.timer.counter.toNat + 1 < b := by
  rw [budgetReached_iff, Nat.not_le]

/-! HBlank and VBlank -/

theorem tick_hBlank {s : State} (hf : s.arb.fatal = false) (hp : s.NothingPending) (hl : s.timer.line.toNat ≤ 153)
    (hm : s.timer.mode = .hBlank) : tick s = .next (hBlankTick s) := by
  rw [tick_runs s hf hp hl, modeTick, hm]

theorem tick_vBlank {s : State} (hf : s.arb.fatal = false) (hp : s.NothingPending) (hl : s.timer.line.toNat ≤ 153)
    (hm : s.timer.mode = .vBlank) : tick s = .next (vBlankTick s) := by
  rw [tick_runs s hf hp hl, modeTick, hm]

/-- Settles O43: the budget decides whether the counter goes on, and the next line's number which mode follows. -/
theorem ModeTimer.hBlankTick : Obligations.HBlankTick := by
  unfold Obligations.HBlankTick
  intro s hf hp hl hm
  have hline := line_succ_toNat hl
  rw [tick_hBlank hf hp hl hm, Machine.hBlankTick]
  refine ⟨fun hc => ?_, fun hc hne => ?_, fun hc heq => ?_⟩
  · rw [if_neg ((not_budgetReached_iff _ s).mpr (Nat.succ_lt_succ hc))]
    rfl
  · have hn : (s.timer.line + 1).toNat ≠ nVisible := by rw [hline]; simpa [nVisible] using hne
    rw [if_pos ((budgetReached_iff _ s).mpr (Nat.succ_le_succ hc)), if_neg hn]
    rfl
  · have hn : s.timer.line + 1 = 144 := BitVec.eq_of_toNat_eq (by rw [hline, heq]; rfl)
    rw [if_pos ((budgetReached_iff _ s).mpr (Nat.succ_le_succ hc)), hn]
    rfl

/-- Settles O44: the budget decides whether the counter goes on, and the last line's number where the frame ends. -/
theorem ModeTimer.vBlankTick : Obligations.VBlankTick := by
  unfold Obligations.VBlankTick
  intro s hf hp hl hm
  have hline := line_succ_toNat hl
  rw [tick_vBlank hf hp hl hm, Machine.vBlankTick]
  refine ⟨fun hc => ?_, fun hc hlt => ?_, fun hc heq => ?_⟩
  · rw [if_neg ((not_budgetReached_iff _ s).mpr (Nat.succ_lt_succ hc))]
    rfl
  · have hn : ¬ lastLine < (s.timer.line + 1).toNat := by rw [hline]; exact Nat.not_lt.mpr hlt
    rw [if_pos ((budgetReached_iff _ s).mpr (Nat.succ_le_succ hc)), if_neg hn]
    rfl
  · have hn : lastLine < (s.timer.line + 1).toNat := by rw [hline, heq]; decide
    rw [if_pos ((budgetReached_iff _ s).mpr (Nat.succ_le_succ hc)), if_pos hn]
    rfl

/-! PixelTransfer -/

/-- Settles O42: a dot leaves the timer as it is, so the counter at the start of the tick decides whether the line ends. -/
theorem ModeTimer.pixelTransferTick : Obligations.PixelTransferTick := by
  unfold Obligations.PixelTransferTick
  intro s u hf hp hl hm hd
  have ht : u.timer = s.timer := (dot_frame hd).timer
  rw [tick_runs s hf hp hl, modeTick, hm]
  simp only [Machine.pixelTransferTick, hd, ← ht]
  refine ⟨fun hfu => thenRun_of_fatal hfu, fun hfu hc => ?_, fun hfu hc => ?_⟩
  · rw [thenRun_of_running hfu, if_neg ((not_budgetReached_iff _ u).mpr (Nat.succ_lt_succ hc))]
    rfl
  · rw [thenRun_of_running hfu, if_pos ((budgetReached_iff _ u).mpr (Nat.succ_le_succ hc))]
    rfl

/-! OAMScan -/

/-- The arbiter after a port-G request that was answered at once (R141, R144, R151). -/
def Arbiter.answeredG (b : Arbiter) (w : ReqWord) (r : Rsp) : Arbiter :=
  { b with
    reqG := { latchOf w b.nextStamp with valid := false }
    replyG := some r
    port := .portG
    nextStamp := b.nextStamp + 1 }

theorem Arbiter.answeredG_afterReadG (b : Arbiter) (w : ReqWord) (r : Rsp) : b.AfterReadG (b.answeredG w r) :=
  ⟨rfl, rfl⟩

/-- The whole effect of a port-G read on an idle port: the arbiter's record of it, and nothing else (R71, R152). -/
theorem busReadG_answered {i : Instr} {s : State} (hi : isReadOp i = true) (hw : i.wellFormed = true) (h : s.PortGIdle) :
    busReadG i s = .next { s with arb := s.arb.answeredG (encode i) (readRspG i s) } := by
  obtain ⟨hf, ha, hq, hv⟩ := h
  have hempty : s.arb.answeredG (encode i) (readRspG i s) =
      { s.arb.answeredG (encode i) (readRspG i s) with queue := [] } := by
    rw [← hq]
    rfl
  rw [busReadG, transact_alone .portG _ s hf hq hv, decode_encode i,
    exec_runs i _ (by simpa using hf) (by simpa using ha) hw, hempty]
  cases i with
  | rb a => rfl
  | rw a => rfl
  | wb a v => cases hi
  | ww a w => cases hi

/-- OAM is never locked for port G (R70, R121). -/
theorem readByte_portG_oam {s : State} {a : Addr} {k : Nat} (ha : a.toNat = 0xFE00 + k) (hk : k < 160) :
    readByte s .portG a = (s.mem.read .oam k, false) := by
  have hr : s.region a = .spriteMemory := regionOf_spriteMemory _ a (by omega) (by omega)
  rw [readByte_spriteMemory .portG hr, if_neg (by simp), ha, Nat.add_sub_cancel_left]

theorem scanAddr_toNat {c : Nat} (hc : c < 80) :
    (scanAddr c).toNat = 0xFE00 + 2 * c ∧ (nextAddr (scanAddr c)).toNat = 0xFE00 + (2 * c + 1) := by
  simp only [nextAddr, scanAddr, BitVec.ofNat_eq_ofNat, BitVec.toNat_add, BitVec.toNat_ofNat]
  omega

/-- The scan's read of word c is answered with that word of OAM (R66, R212). -/
theorem readRspG_scan {c : Nat} (hc : c < 80) (s : State) :
    readRspG (.rw (scanAddr c)) s = { status := .okData, unsup := false, data := s.oamWord c } := by
  obtain ⟨hlo, hhi⟩ := scanAddr_toNat hc
  simp only [readRspG, rspOf, readWord]
  rw [readByte_portG_oam hlo (by omega), readByte_portG_oam hhi (by omega)]
  rfl

/-- The scan step on an idle port (R212). -/
theorem scanStep_answered {c : Nat} {s : State} (hc : c < 80) (h : s.PortGIdle) :
    scanStep c s = .next (loadScanned c (s.oamWord c)
      { s with
        arb := s.arb.answeredG (encode (.rw (scanAddr c))) { status := .okData, unsup := false, data := s.oamWord c } }) := by
  rw [scanStep, busReadG_answered rfl (scanAddr_wellFormed c) h, readRspG_scan hc, thenRun_of_running (by exact h.1)]
  rfl

/-- The scanned word goes into the one record it belongs to (R212). -/
theorem loadScanned_recs {c : Nat} (hc : c < 80) (w : Word) (s : State) (n : Fin 40) :
    (loadScanned c w s).sprites.recs[n] =
      if n.val = c / 2 then storeScanned c w s.sprites.recs[n] else s.sprites.recs[n] := by
  have hrec : c / 2 < 40 := by omega
  simp only [loadScanned, dif_pos hrec, Fin.getElem_fin, Vector.getElem_set, eq_comm (a := c / 2)]
  split
  next h => simp only [h]
  next => rfl

theorem loadScanned_frame (c : Nat) (w : Word) (s : State) :
    loadScanned c w s = { s with sprites := (loadScanned c w s).sprites } := by
  unfold loadScanned
  split
  · rfl
  · rfl

@[simp] theorem loadScanned_consumed (c : Nat) (w : Word) (s : State) :
    (loadScanned c w s).sprites.consumed = s.sprites.consumed := by
  unfold loadScanned
  split
  · rfl
  · rfl

/-- The state in which the OAMScan tick on an idle port has stored its word and not yet moved the timer (R212, R213). -/
def State.scanned (s : State) : State :=
  let c := s.timer.counter.toNat
  loadScanned c (s.oamWord c)
    { (if s.timer.counter = 0 then newLine s else s) with
      arb := s.arb.answeredG (encode (.rw (scanAddr c))) { status := .okData, unsup := false, data := s.oamWord c } }

theorem oamScanTick_answered {s : State} (hc : s.timer.counter.toNat < 80) (h : s.PortGIdle) :
    oamScanTick s = .next (if budgetReached tOam s.scanned then endOamScan s.scanned else countOn s.scanned) := by
  have hscan : scanStep s.timer.counter.toNat (if s.timer.counter = 0 then newLine s else s) = .next s.scanned := by
    rw [State.scanned]
    split
    · exact scanStep_answered hc h
    · exact scanStep_answered hc h
  have hf : s.scanned.arb.fatal = false := by
    simp only [State.scanned, loadScanned_arb]
    exact h.1
  rw [oamScanTick, hscan, thenRun_of_running hf]

/-- All that the scan changes: the arbiter's record of the read, and the sprite table (R212, R213). -/
theorem State.scanned_frame (s : State) :
    s.scanned = { s with arb := s.scanned.arb, sprites := s.scanned.sprites } := by
  rw [State.scanned, loadScanned_frame]
  split
  · rfl
  · rfl

theorem State.scanned_arb (s : State) :
    s.scanned.arb = s.arb.answeredG (encode (.rw (scanAddr s.timer.counter.toNat)))
      { status := .okData, unsup := false, data := s.oamWord s.timer.counter.toNat } := by
  simp only [State.scanned, loadScanned_arb]

@[simp] theorem State.scanned_timer (s : State) : s.scanned.timer = s.timer := by rw [s.scanned_frame]

@[simp] theorem State.scanned_pipe (s : State) : s.scanned.pipe = s.pipe := by rw [s.scanned_frame]

theorem State.scanned_recs {s : State} (hc : s.timer.counter.toNat < 80) (n : Fin 40) :
    s.scanned.sprites.recs[n] =
      if n.val = s.timer.counter.toNat / 2 then
        storeScanned s.timer.counter.toNat (s.oamWord s.timer.counter.toNat) s.sprites.recs[n]
      else s.sprites.recs[n] := by
  rw [State.scanned, loadScanned_recs hc]
  split
  · split <;> rfl
  · split <;> rfl

/-- The first tick of a line clears the marks and the list; the others keep them (R213). -/
theorem State.scanned_marks (s : State) :
    (∀ n : Fin 40, s.scanned.sprites.consumed[n] = if s.timer.counter = 0 then false else s.sprites.consumed[n]) ∧
      s.scanned.sprites.vis = if s.timer.counter = 0 then [] else s.sprites.vis := by
  simp only [State.scanned, loadScanned_consumed, loadScanned_vis]
  split
  · exact ⟨fun n => Vector.getElem_replicate _, rfl⟩
  · exact ⟨fun _ => rfl, rfl⟩

/-- The two bytes of a word of OAM in their record (R66, R96, R212). -/
theorem storeScanned_oamWord (s : State) (c : Nat) (r : SpriteRec) :
    storeScanned c (s.oamWord c) r =
      if c % 2 = 0 then { r with y := s.mem.read .oam (2 * c), x := s.mem.read .oam (2 * c + 1) }
      else { r with tile := s.mem.read .oam (2 * c), flags := s.mem.read .oam (2 * c + 1) } := by
  simp only [storeScanned, State.oamWord, lowByte_joinBytes, highByte_joinBytes]

/-- The OAMScan tick on a live block: the word is scanned, then the counter goes on or the mode ends (R172). -/
theorem tick_oamScan {s : State} (hf : s.arb.fatal = false) (ha : s.arb.alive = true) (hp : s.NothingPending)
    (hm : s.timer.mode = .oamScan) (hc : s.timer.counter.toNat < 80) (hl : s.timer.line.toNat ≤ 153) :
    tick s = .next (if s.timer.counter.toNat < 79 then countOn s.scanned else endOamScan s.scanned) := by
  obtain ⟨hP, hG, hq⟩ := hp
  rw [tick_runs s hf ⟨hP, hG, hq⟩ hl, modeTick, hm]
  simp only [oamScanTick_answered hc ⟨hf, ha, hq, hG⟩]
  have hcounter : s.scanned.timer.counter = s.timer.counter := by rw [State.scanned_timer]
  by_cases h79 : s.timer.counter.toNat < 79
  · rw [if_pos h79, if_neg ((not_budgetReached_iff _ _).mpr (hcounter ▸ Nat.succ_lt_succ h79))]
  · rw [if_neg h79, if_pos ((budgetReached_iff _ _).mpr (hcounter ▸ Nat.succ_le_succ (Nat.not_lt.mp h79)))]

/-- Settles O41: whether the counter goes on or the mode ends, the records, the marks and the arbiter stay as the scan left
them. -/
theorem ModeTimer.oamScanTick : Obligations.OamScanTick := by
  unfold Obligations.OamScanTick
  intro s hf ha hp hm hc hl
  obtain ⟨t, hte⟩ : ∃ t, t = if s.timer.counter.toNat < 79 then countOn s.scanned else endOamScan s.scanned := ⟨_, rfl⟩
  have htick : tick s = .next t := by rw [tick_oamScan hf ha hp hm hc hl, hte]
  obtain ⟨hconsumed, hvis⟩ := s.scanned_marks
  have hscan : t.arb = s.scanned.arb ∧ t.sprites.recs = s.scanned.sprites.recs ∧
      t.sprites.consumed = s.scanned.sprites.consumed ∧
      t = { s with arb := t.arb, timer := t.timer, sprites := t.sprites, pipe := t.pipe } := by
    have hframe := s.scanned_frame
    rw [hte]
    split
    · exact ⟨rfl, rfl, rfl, by rw [hframe]; rfl⟩
    · exact ⟨rfl, rfl, rfl, by rw [hframe]; rfl⟩
  obtain ⟨harb, hrecs, hcons, hframe⟩ := hscan
  obtain ⟨hop, haddr, -⟩ := Sys2Proof.Laws.EncodeFields.rw (scanAddr s.timer.counter.toNat)
  rw [State.scanned_arb] at harb
  refine ⟨t, htick, ?_, ?_, ?_, ?_, fun n => ?_, fun n => ?_, fun h79 => ?_, fun h79 => ?_, hframe⟩
  · rw [harb]
    exact Arbiter.answeredG_afterReadG _ _ _
  · rw [harb]
    exact hop
  · rw [harb, ← (scanAddr_toNat hc).1]
    exact congrArg BitVec.toNat haddr
  · rw [harb]
    rfl
  · rw [hrecs, State.scanned_recs hc, storeScanned_oamWord]
  · rw [hcons, hconsumed]
  · rw [hte, if_pos h79]
    exact ⟨by simp, by simp, hvis⟩
  · rw [hte, if_neg (by omega)]
    exact ⟨by simp [endOamScan], by simp [endOamScan], by simp [endOamScan, scanline]⟩

end Sys2Proof.Machine
end

/-! Proofs: what moves the timer, and the frame's schedule (R158, R176, R177) -/

section
namespace Sys2Proof.Machine

/-- Settles O33: the other moves leave the display side alone, and a tick that answers had nothing outstanding. -/
theorem onlyTicksMoveTimer : Obligations.OnlyTicksMoveTimer := by
  unfold Obligations.OnlyTicksMoveTimer
  refine ⟨fun m s t htick hreset h => (applyMove_sameDisplay htick hreset h).timer, fun p s hv t h => ?_⟩
  obtain ⟨-, ⟨hP, hG, -⟩, -⟩ := tick_next h
  cases p with
  | portP => exact absurd hP (by simpa [Arbiter.req] using hv)
  | portG => exact absurd hG (by simpa [Arbiter.req] using hv)

/-! The timer's own step -/

/-- The timer where its mode ends: the next mode, and after HBlank and each VBlank line the next line (R172 to R175). -/
def Timer.modeEnd (t : Timer) : Timer :=
  match t.mode with
  | .oamScan => { t with mode := .pixelTransfer, counter := 0 }
  | .pixelTransfer => { t with mode := .hBlank, counter := 0 }
  | .hBlank =>
    if t.line.toNat = 143 then { mode := .vBlank, counter := 0, line := 144 }
    else { mode := .oamScan, counter := 0, line := t.line + 1 }
  | .vBlank =>
    if t.line.toNat = 153 then { mode := .oamScan, counter := 0, line := 0 }
    else { mode := .vBlank, counter := 0, line := t.line + 1 }

/-- The timer one tick on (R170, R172 to R175). -/
def Timer.next (t : Timer) : Timer :=
  if t.counter.toNat + 1 < modeBudget t.mode then { t with counter := t.counter + 1 } else t.modeEnd

theorem Timer.next_of_lt {t : Timer} {b : Nat} (hb : modeBudget t.mode = b + 1) (h : t.counter.toNat < b) :
    t.next = { t with counter := t.counter + 1 } := if_pos (by omega)

theorem Timer.next_of_ge {t : Timer} {b : Nat} (hb : modeBudget t.mode = b + 1) (h : ¬ t.counter.toNat < b) :
    t.next = t.modeEnd := if_neg (by omega)

/-- On a running block a tick takes the timer one step on, in every mode (R172 to R175). -/
theorem State.Running.tick_timer {s : State} (h : s.Running) : ∃ t, tick s = .next t ∧ t.timer = s.timer.next := by
  obtain ⟨hf, ha, hq, hinv, hvis⟩ := h
  obtain ⟨hbus, hdisplay⟩ := (State.inv_iff s).mp hinv
  obtain ⟨hline, hcount, -⟩ := hdisplay.timer
  have free := hbus.arb.req_valid_of_empty hq
  have hp : s.NothingPending := ⟨free .portP, free .portG, hq⟩
  cases hm : s.timer.mode with
  | oamScan =>
    have hb : modeBudget s.timer.mode = 79 + 1 := by rw [hm]; rfl
    obtain ⟨t, ht, -, -, -, -, -, -, hwithin, hend, -⟩ := ModeTimer.oamScanTick s hf ha hp hm (hcount.trans_eq hb) hline
    refine ⟨t, ht, ?_⟩
    by_cases hc : s.timer.counter.toNat < 79
    · rw [(hwithin hc).1, Timer.next_of_lt hb hc]
    · rw [(hend (by omega)).1, Timer.next_of_ge hb hc, Timer.modeEnd, hm]
  | pixelTransfer =>
    have hb : modeBudget s.timer.mode = 171 + 1 := by rw [hm]; rfl
    obtain ⟨u, hu, idle⟩ := dot_idle hdisplay.pipe (hvis hm) ⟨hf, ha, hq, free .portG⟩
    obtain ⟨-, hwithin, hend⟩ := ModeTimer.pixelTransferTick s u hf hp hline hm hu
    by_cases hc : s.timer.counter.toNat < 171
    · exact ⟨_, hwithin idle.1 hc, (Timer.next_of_lt hb hc).symm⟩
    · rw [Timer.next_of_ge hb hc, Timer.modeEnd, hm]
      exact ⟨_, hend idle.1 (Nat.not_lt.mp hc), rfl⟩
  | hBlank =>
    have hb : modeBudget s.timer.mode = 203 + 1 := by rw [hm]; rfl
    obtain ⟨hwithin, hnext, hlast⟩ := ModeTimer.hBlankTick s hf hp hline hm
    by_cases hc : s.timer.counter.toNat < 203
    · exact ⟨_, hwithin hc, (Timer.next_of_lt hb hc).symm⟩
    · rw [Timer.next_of_ge hb hc, Timer.modeEnd, hm]
      simp only
      split
      next hl => exact ⟨_, hlast (Nat.not_lt.mp hc) hl, rfl⟩
      next hl => exact ⟨_, hnext (Nat.not_lt.mp hc) hl, rfl⟩
  | vBlank =>
    have hb : modeBudget s.timer.mode = 455 + 1 := by rw [hm]; rfl
    obtain ⟨hwithin, hnext, hlast⟩ := ModeTimer.vBlankTick s hf hp hline hm
    by_cases hc : s.timer.counter.toNat < 455
    · exact ⟨_, hwithin hc, (Timer.next_of_lt hb hc).symm⟩
    · rw [Timer.next_of_ge hb hc, Timer.modeEnd, hm]
      simp only
      split
      next hl => exact ⟨_, hlast (Nat.not_lt.mp hc) hl, rfl⟩
      next hl => exact ⟨_, hnext (Nat.not_lt.mp hc) (Nat.lt_of_le_of_ne hline hl), rfl⟩

/-! The schedule of a frame -/

/-- The timer c ticks into line l (R176). -/
def timerAt (l c : Nat) : Timer :=
  if 144 ≤ l then ⟨.vBlank, BitVec.ofNat 9 c, BitVec.ofNat 8 l⟩
  else if c < 80 then ⟨.oamScan, BitVec.ofNat 9 c, BitVec.ofNat 8 l⟩
  else if c < 252 then ⟨.pixelTransfer, BitVec.ofNat 9 (c - 80), BitVec.ofNat 8 l⟩
  else ⟨.hBlank, BitVec.ofNat 9 (c - 252), BitVec.ofNat 8 l⟩

theorem timerAfter_eq_timerAt (n : Nat) : timerAfter n = timerAt (n % 70224 / 456) (n % 70224 % 456) := rfl

section parts

variable {l : Nat} (hl : l < 144)
include hl

theorem timerAt_oamScan {k : Nat} (hk : k < 80) : timerAt l k = ⟨.oamScan, BitVec.ofNat 9 k, BitVec.ofNat 8 l⟩ := by
  rw [timerAt, if_neg (by omega), if_pos hk]

theorem timerAt_pixelTransfer {k : Nat} (hk : k < 172) :
    timerAt l (k + 80) = ⟨.pixelTransfer, BitVec.ofNat 9 k, BitVec.ofNat 8 l⟩ := by
  rw [timerAt, if_neg (by omega), if_neg (by omega), if_pos (by omega), Nat.add_sub_cancel]

theorem timerAt_hBlank (k : Nat) : timerAt l (k + 252) = ⟨.hBlank, BitVec.ofNat 9 k, BitVec.ofNat 8 l⟩ := by
  rw [timerAt, if_neg (by omega), if_neg (by omega), if_neg (by omega), Nat.add_sub_cancel]

end parts

theorem timerAt_vBlank {l : Nat} (hl : 144 ≤ l) (k : Nat) :
    timerAt l k = ⟨.vBlank, BitVec.ofNat 9 k, BitVec.ofNat 8 l⟩ := if_pos hl

/-- Inside a mode the schedule counts on. -/
theorem Timer.next_counting {m : Mode} {b k : Nat} (l : BitVec 8) (hb : modeBudget m = b + 1) (h : k < b) :
    Timer.next ⟨m, BitVec.ofNat 9 k, l⟩ = ⟨m, BitVec.ofNat 9 (k + 1), l⟩ := by
  have hfits := (modeBudget_bounds m).2
  have hk : (BitVec.ofNat 9 k).toNat = k := by rw [BitVec.toNat_ofNat]; omega
  rw [Timer.next_of_lt hb (by rw [hk]; exact h), BitVec.ofNat_add]
  rfl

/-- On the last tick of its budget the mode ends. -/
theorem Timer.next_ending {m : Mode} {b : Nat} (l : BitVec 8) (hb : modeBudget m = b + 1) :
    Timer.next ⟨m, BitVec.ofNat 9 b, l⟩ = Timer.modeEnd ⟨m, BitVec.ofNat 9 b, l⟩ := by
  have hfits := (modeBudget_bounds m).2
  have hk : (BitVec.ofNat 9 b).toNat = b := by rw [BitVec.toNat_ofNat]; omega
  exact Timer.next_of_ge hb (by rw [hk]; exact Nat.lt_irrefl b)

/-- The timer's step keeps the schedule inside a line: it counts on, or one part of the line follows another. -/
theorem timerAt_next_tick (l : Nat) {c : Nat} (hc : c < 455) : (timerAt l c).next = timerAt l (c + 1) := by
  by_cases hl : l < 144
  · obtain h | rfl | h | rfl | h : c < 79 ∨ c = 79 ∨ (80 ≤ c ∧ c < 251) ∨ c = 251 ∨ 252 ≤ c := by omega
    · rw [timerAt_oamScan hl (by omega), timerAt_oamScan hl (by omega)]
      exact Timer.next_counting _ rfl h
    · rw [timerAt_oamScan hl (by omega), timerAt_pixelTransfer (k := 0) hl (by omega)]
      exact Timer.next_ending _ rfl
    · obtain ⟨k, rfl⟩ := Nat.exists_eq_add_of_le' h.1
      rw [timerAt_pixelTransfer hl (by omega), Nat.add_right_comm, timerAt_pixelTransfer hl (by omega)]
      exact Timer.next_counting (b := 171) _ rfl (by omega)
    · rw [timerAt_pixelTransfer (k := 171) hl (by omega), timerAt_hBlank (k := 0) hl]
      exact Timer.next_ending _ rfl
    · obtain ⟨k, rfl⟩ := Nat.exists_eq_add_of_le' h
      rw [timerAt_hBlank hl, Nat.add_right_comm, timerAt_hBlank hl]
      exact Timer.next_counting (b := 203) _ rfl (by omega)
  · rw [timerAt_vBlank (by omega), timerAt_vBlank (by omega)]
    exact Timer.next_counting _ rfl hc

/-- The timer's step keeps the schedule at the end of every line but the last (R174, R175). -/
theorem timerAt_next_line {l : Nat} (hl : l < 153) : (timerAt l 455).next = timerAt (l + 1) 0 := by
  have hline : (BitVec.ofNat 8 l).toNat = l := by rw [BitVec.toNat_ofNat]; omega
  have hsucc : BitVec.ofNat 8 l + 1 = BitVec.ofNat 8 (l + 1) := (BitVec.ofNat_add l 1).symm
  by_cases h : l < 144
  · rw [timerAt_hBlank (k := 203) h, Timer.next_ending _ rfl, Timer.modeEnd]
    simp only [hline, hsucc]
    split
    next h143 =>
      subst h143
      rfl
    next h143 =>
      rw [timerAt_oamScan (by omega) (by omega)]
      rfl
  · rw [timerAt_vBlank (by omega), timerAt_vBlank (by omega), Timer.next_ending _ rfl, Timer.modeEnd]
    simp only [hline, hsucc, if_neg (show ¬ l = 153 by omega)]
    rfl

/-- The timer's step keeps the schedule: within a line, from line to line, and from frame to frame (R176). -/
theorem timerAfter_next (n : Nat) : (timerAfter n).next = timerAfter (n + 1) := by
  rw [timerAfter_eq_timerAt, timerAfter_eq_timerAt]
  obtain ⟨k, hk⟩ : ∃ k, k = n % 70224 := ⟨_, rfl⟩
  have hk' : (n + 1) % 70224 = if k = 70223 then 0 else k + 1 := by split <;> omega
  rw [hk', ← hk]
  split
  next hend =>
    rw [hend]
    rfl
  next hend =>
    have hlt : k < 70223 := by omega
    by_cases hc : k % 456 = 455
    · rw [hc, timerAt_next_line (by omega)]
      congr 1 <;> omega
    · rw [timerAt_next_tick _ (by omega)]
      congr 1 <;> omega

/-- A tick of a running block on the schedule leaves a running block one tick further on it. -/
theorem State.Running.tick_onSchedule {n : Nat} {s : State} (h : s.Running) (hn : s.timer = timerAfter n) :
    ∃ t, tick s = .next t ∧ t.Running ∧ t.timer = timerAfter (n + 1) := by
  obtain ⟨t, ht, hrun⟩ := ticksKeepRunning s h
  obtain ⟨u, hu, htimer⟩ := h.tick_timer
  obtain rfl : t = u := Host.Outcome.next.inj (ht.symm.trans hu)
  exact ⟨t, ht, hrun, by rw [htimer, hn, timerAfter_next]⟩

/-- So any number of ticks in a row completes on the schedule. -/
theorem State.Running.runTicks_onSchedule (n : Nat) {m : Nat} {s : State} (h : s.Running) (hm : s.timer = timerAfter m) :
    ∃ t, runTicks n s = .next t ∧ t.timer = timerAfter (m + n) := by
  induction n generalizing m s with
  | zero => exact ⟨s, rfl, hm⟩
  | succ n ih =>
    obtain ⟨u, hu, hrun, htimer⟩ := h.tick_onSchedule hm
    obtain ⟨t, ht, hend⟩ := ih hrun htimer
    refine ⟨t, ?_, ?_⟩
    · rw [runTicks, hu, thenRun_of_running hrun.1, ht]
    · rw [hend, Nat.add_right_comm, Nat.add_assoc]

/-- Settles O46: by the timer's own step, which every mode's tick takes and which keeps the schedule. -/
theorem frameArithmetic : Obligations.FrameArithmetic := by
  unfold Obligations.FrameArithmetic
  refine ⟨fun n s h hn => h.tick_onSchedule hn, fun n s h h0 => ?_⟩
  have hstart : s.timer = timerAfter 0 := h0
  simpa using h.runTicks_onSchedule n hstart

end Sys2Proof.Machine
end

/-! Proofs: no step from the invariants is refused or raises a timing or overlay fault (R171, R242, R294 to R296) -/

section
namespace Sys2Proof.Machine

/-- Nothing fatal has been recorded but what a bus request can raise (R292, R293). -/
def State.CauseFromBus (s : State) : Prop :=
  s.arb.cause = .noCause ∨ s.arb.cause = .malformedRequest ∨ s.arb.cause = .channelSevered

/-- An outcome is not refused, and a next state records no cause but a bus request's. -/
def CleanOutcome : Result → Prop
  | .next t => t.CauseFromBus
  | .fault _ => True
  | .refused _ => False

theorem State.CauseFromBus.of_arb {s t : State} (h : s.CauseFromBus) (e : t.arb = s.arb) : t.CauseFromBus := by
  rw [State.CauseFromBus, e]
  exact h

/-- A sequence is clean when its first part is and its second part is wherever the first one leads; a raise ends it
(R291). -/
theorem CleanOutcome.thenRun {o : Result} {k : State → Result} (ho : CleanOutcome o)
    (hk : ∀ u, o = .next u → u.arb.fatal = false → u.CauseFromBus → CleanOutcome (k u)) : CleanOutcome (thenRun o k) := by
  cases o with
  | next u =>
    cases hf : u.arb.fatal with
    | true =>
      rw [thenRun_of_fatal hf]
      exact ho
    | false =>
      rw [thenRun_of_running hf]
      exact hk u rfl hf ho
  | fault r => trivial
  | refused r => exact ho

/-! Requests -/

theorem enqueueRequest_causeFromBus (p : Port) (w : ReqWord) {s : State} (h : s.CauseFromBus) :
    (enqueueRequest p w s).CauseFromBus := by
  simpa [State.CauseFromBus] using h

theorem submit_clean (p : Port) (w : ReqWord) {s : State} (h : s.CauseFromBus) : CleanOutcome (submit p w s) := by
  unfold submit
  split
  · trivial
  · split
    · trivial
    · exact enqueueRequest_causeFromBus p w h

/-- An operation raises Fatal for a malformed request or a severed channel only (R145, R156). -/
theorem exec_clean (i : Instr) {s : State} (h : s.CauseFromBus) : CleanOutcome (exec i s) := by
  cases hf : s.arb.fatal with
  | true =>
    rw [exec_fatal i s hf]
    trivial
  | false =>
    obtain ⟨t, ht⟩ := exec_answers i hf
    rw [ht]
    obtain ⟨-, ⟨-, -, rfl⟩ | ⟨-, -, rfl⟩ | ⟨-, rfl⟩⟩ := exec_next i s t ht
    · simpa [CleanOutcome, State.CauseFromBus] using h
    · exact .inr (.inl rfl)
    · exact .inr (.inr rfl)

theorem service_clean {s : State} (h : s.CauseFromBus) : CleanOutcome (service s) := by
  unfold service
  split
  · trivial
  · split
    · trivial
    · exact exec_clean _ h

theorem serviceUntil_clean (p : Port) (q : List Port) {s : State} (h : s.CauseFromBus) :
    CleanOutcome (serviceUntil p q s) := by
  induction q generalizing s with
  | nil => trivial
  | cons x rest ih =>
    unfold serviceUntil
    split
    · exact service_clean h
    · exact (service_clean h).thenRun fun _ _ _ => ih

theorem transact_clean (p : Port) (w : ReqWord) {s : State} (h : s.CauseFromBus) : CleanOutcome (transact p w s) :=
  (submit_clean p w h).thenRun fun u _ _ => serviceUntil_clean p u.arb.queue

theorem submitBoth_clean (wP wG : ReqWord) {s : State} (h : s.CauseFromBus) : CleanOutcome (submitBoth wP wG s) := by
  have hdrawn : { s with draws := s.draws + 1 }.CauseFromBus := h
  unfold submitBoth
  simp only
  split
  · exact (submit_clean .portP wP hdrawn).thenRun fun _ _ _ => submit_clean .portG wG
  · exact (submit_clean .portG wG hdrawn).thenRun fun _ _ _ => submit_clean .portP wP

/-! The graphics tick -/

/-- A port-G read and a change outside the arbiter after it (R8, R152). -/
theorem readThen_clean {i : Instr} {f : State → State} {s : State} (hf : ∀ u, (f u).arb = u.arb) (h : s.CauseFromBus) :
    CleanOutcome (thenRun (busReadG i s) (fun u => .next (f u))) :=
  (transact_clean .portG (encode i) h).thenRun fun u _ _ hu => hu.of_arb (hf u)

theorem fetchStage_clean {s : State} (h : s.CauseFromBus) : CleanOutcome (fetchStage s) := by
  unfold fetchStage
  split
  · exact h
  · split
    · exact readThen_clean (s := setPhase false s) (f := fun u => gotTileNo (lowByte (replyDataG u)) u) (fun _ => rfl) h
    · exact h
  · split
    · exact readThen_clean (s := setPhase false s) (f := fun u => gotByte0 (lowByte (replyDataG u)) u) (fun _ => rfl) h
    · exact h
  · split
    · exact readThen_clean (s := setPhase false s) (f := fun u => gotByte1 (lowByte (replyDataG u)) u) (fun _ => rfl) h
    · exact h

/-- The overlay stage of listed, visible sprites on eight valid slots leaves the arbiter alone (R239, R240). -/
theorem overlayStage_runs {s : State} (hf : s.arb.fatal = false)
    (hv : ∀ k : Fin 16, k.val < 8 → s.pipe.fifo[k].valid = true) (hn : s.ListedVisible) :
    ∃ t, overlayStage s = .next t ∧ t.arb = s.arb := by
  have eight : ∀ k ∈ ([0, 1, 2, 3, 4, 5, 6, 7] : List (Fin 16)), k.val < 8 := by decide
  unfold overlayStage
  split
  next n hfind =>
    obtain ⟨u, hu, ha⟩ := overlayFrom_runs n [0, 1, 2, 3, 4, 5, 6, 7] s hf (fun k hk => hv k (eight k hk))
      (spriteRow_isSome _ _ (hn n (List.mem_of_find?_eq_some hfind)))
    exact ⟨consume n u, by rw [overlay, hu, thenRun_of_running (ha ▸ hf)], ha⟩
  next => exact ⟨s, rfl, rfl⟩

/-- Behind the gate more than eight slots are valid, so no overlay meets an empty one (R34 d, R238, R242). -/
theorem emitStage_runs {s : State} (hf : s.arb.fatal = false) (hp : s.pipe.Ok) (hn : s.ListedVisible) :
    ∃ t, emitStage s = .next t ∧ t.arb = s.arb := by
  unfold emitStage
  split
  next hgate =>
    obtain ⟨hvalid, -, -⟩ := hp
    have hcount : 8 < s.pipe.count.toNat := hgate
    obtain ⟨u, hu, ha⟩ := overlayStage_runs hf (fun k hk => (hvalid k).trans (decide_eq_true (by omega))) hn
    exact ⟨pushStage u, by rw [hu, thenRun_of_running (ha ▸ hf)], ha⟩
  next => exact ⟨s, rfl, rfl⟩

theorem dot_clean {s : State} (hp : s.pipe.Wf) (hn : s.ListedVisible) (h : s.CauseFromBus) : CleanOutcome (dot s) := by
  unfold dot
  split
  · exact h
  · refine (fetchStage_clean h).thenRun fun u hu hf hcause => ?_
    have fr := fetchStage_frame hu
    have hlisted : (enqueueStage u).ListedVisible := by
      simpa only [State.ListedVisible, enqueueStage_sprites, enqueueStage_timer, fr.sprites, fr.timer] using hn
    obtain ⟨t, ht, ha⟩ := emitStage_runs (s := enqueueStage u) hf (enqueuePipe_wf u.pipe (fr.sameLevels.wf hp)).ok hlisted
    rw [ht]
    exact hcause.of_arb ha

theorem oamScanTick_clean {s : State} (h : s.CauseFromBus) : CleanOutcome (oamScanTick s) := by
  have started : (if s.timer.counter = 0 then newLine s else s).CauseFromBus := by
    split
    · exact h
    · exact h
  unfold oamScanTick scanStep
  refine (readThen_clean (fun u => loadScanned_arb _ _ u) started).thenRun fun u _ _ hu => ?_
  split
  · exact hu
  · exact hu

theorem pixelTransferTick_clean {s : State} (hp : s.pipe.Wf) (hn : s.ListedVisible) (h : s.CauseFromBus) :
    CleanOutcome (pixelTransferTick s) := by
  refine (dot_clean hp hn h).thenRun fun u _ _ hu => ?_
  split
  · exact hu
  · exact hu

/-- With the line in range and the listed sprites visible a tick raises no fault of its own (R171, R242, R295). -/
theorem tick_clean {s : State} (hd : s.DisplayOk) (hn : s.SelectedVisible) (h : s.CauseFromBus) :
    CleanOutcome (tick s) := by
  obtain ⟨hline, -, -⟩ := hd.timer
  unfold tick
  split
  · trivial
  · split
    · trivial
    · rw [if_neg (Nat.not_lt.mpr hline)]
      unfold modeTick
      split
      next => exact oamScanTick_clean h
      next hmode => exact pixelTransferTick_clean hd.pipe (hn hmode) h
      next =>
        obtain ⟨tm, st, e⟩ := hBlankTick_frame s
        rw [e]
        exact h
      next =>
        obtain ⟨tm, e⟩ := vBlankTick_frame s
        rw [e]
        exact h

/-! The moves and the step -/

theorem hostEvent_clean {f : State → State} {s : State} (hf : (f s).arb.cause = s.arb.cause) (h : s.CauseFromBus) :
    CleanOutcome (hostEvent f s) := by
  unfold hostEvent
  split
  · trivial
  · show (f s).CauseFromBus
    rw [State.CauseFromBus, hf]
    exact h

/-- On a fatal block every move but reset is a fault, and reset clears the cause (R291). -/
theorem applyMove_clean_of_fatal (m : Move) {s : State} (hf : s.arb.fatal = true) : CleanOutcome (applyMove m s) := by
  by_cases hm : m = .reset
  · subst hm
    exact .inl rfl
  · obtain ⟨-, hstopped, -⟩ := fatalStopsEverything s hf
    rw [hstopped m hm]
    trivial

theorem applyMove_clean (m : Move) {s : State} (hd : s.DisplayOk) (hn : s.SelectedVisible) (h : s.CauseFromBus) :
    CleanOutcome (applyMove m s) := by
  cases m with
  | submit p w => exact submit_clean p w h
  | submitBoth wP wG => exact submitBoth_clean wP wG h
  | service => exact service_clean h
  | transact p w => exact transact_clean p w h
  | tick => exact tick_clean hd hn h
  | reset => exact .inl rfl
  | loadBoot b | loadRom b | setInBoot b | tileReset | sever => exact hostEvent_clean rfl h

theorem step_clean {s : State} (hs : s.Inv) (hn : s.SelectedVisible) : CleanOutcome (step s) := by
  have hinv := nextMove_inv hs
  obtain ⟨hbus, hdisplay⟩ := (State.inv_iff _).mp hinv
  obtain ⟨-, -, -, hcause⟩ := hbus.arb
  show CleanOutcome (applyMove (nextMove s).1 (nextMove s).2)
  cases hf : (nextMove s).2.arb.fatal with
  | true => exact applyMove_clean_of_fatal _ hf
  | false => exact applyMove_clean _ hdisplay (nextMove_selectedVisible hn) (.inl (hcause.mp hf))

/-- Settles O38: with more than eight valid slots behind the gate, visible sprites listed and the line in range, only a
bus request can raise Fatal. -/
theorem defectFaultsUnreachable : Obligations.DefectFaultsUnreachable := by
  unfold Obligations.DefectFaultsUnreachable
  intro s hs hn
  have hclean := step_clean hs hn
  refine ⟨fun r hr => ?_, fun t ht _ => ?_⟩
  · rw [hr] at hclean
    exact hclean
  · rw [ht] at hclean
    exact hclean

end Sys2Proof.Machine
end

/-! Proofs: the tile cache under a video write, and its agreement with video memory (R191, R195) -/

section
namespace Sys2Proof.Machine

/-! The rows under a video write -/

/-- Below the boundary the affected row holds the pair around the index as it is after the store (R191). -/
theorem writeVideoByte_tileRow_same {k : Nat} (v : Byte) (s : State) (hk : k < tileBoundary) :
    (writeVideoByte k v s).tileRow (k / 16) (k % 16 / 2) = videoRow (writeVideoByte k v s).mem k := by
  rw [State.tileRow, writeVideoByte_tile, if_pos hk, Sparse.get_set_same, writeVideoByte_mem]

/-- Every other row stays, and every row stays under a write at or above the boundary (R191). -/
theorem writeVideoByte_tileRow_other {k t r : Nat} (v : Byte) (s : State) (hr : r < 8)
    (h : tileBoundary ≤ k ∨ (t, r) ≠ (k / 16, k % 16 / 2)) :
    (writeVideoByte k v s).tileRow t r = s.tileRow t r := by
  rw [State.tileRow, writeVideoByte_tile]
  split
  · rename_i hk
    have hne : (t, r) ≠ (k / 16, k % 16 / 2) := h.resolve_left (Nat.not_le_of_lt hk)
    refine Sparse.get_set_other _ _ _ fun e => hne ?_
    rw [Prod.mk.injEq]
    omega
  · rfl

/-- A video write changes the storage and the tile cache only (R191). -/
theorem writeVideoByte_frame (k : Nat) (v : Byte) (s : State) :
    writeVideoByte k v s = { s with mem := (writeVideoByte k v s).mem, tile := (writeVideoByte k v s).tile } := by
  rw [writeVideoByte]
  split
  · rfl
  · rfl

/-- Settles O12: the store's one cell, the recompute's one row, and the frame of both. -/
theorem videoWriteRecomputesRow : Obligations.VideoWriteRecomputesRow := by
  unfold Obligations.VideoWriteRecomputesRow
  intro s k v _
  have heven : k / 2 * 2 = k - k % 2 := by omega
  refine ⟨?_, fun b j hbj => ?_, fun hk => ?_, fun t r hr h => writeVideoByte_tileRow_other v s hr h,
    writeVideoByte_frame k v s⟩
  · rw [writeVideoByte_mem, Storage.read_write_same]
  · rw [writeVideoByte_mem, Storage.read_write, if_neg fun e => hbj (Prod.ext e.1 e.2)]
  · rw [writeVideoByte_tileRow_same v s hk, videoRow, heven]
    rfl

/-! The agreement of the tile cache with video memory -/

/-- The cache agrees with video memory when the row at each index is the one recomputed from its pair (R191, R195). -/
theorem State.tilesAgree_iff (s : State) :
    s.TilesAgree ↔ ∀ j < 8 * nTiles, Sparse.get 0#16 s.tile j = videoRow s.mem (j * 2) := by
  have pair : ∀ t r, joinBytes (s.mem.read .vram (16 * t + 2 * r)) (s.mem.read .vram (16 * t + 2 * r + 1)) =
      videoRow s.mem ((8 * t + r) * 2) := by
    intro t r
    rw [videoRow, show (8 * t + r) * 2 / 2 * 2 = 16 * t + 2 * r by omega]
  constructor
  · intro h j hj
    have hrow := h (j / 8) (by omega) (j % 8) (by omega)
    rwa [pair, State.tileRow, show 8 * (j / 8) + j % 8 = j by omega] at hrow
  · intro h t ht r hr
    rw [pair]
    exact h (8 * t + r) (by omega)

/-- The agreement is about the tile cache and the tile data only. -/
theorem State.TilesAgree.of_read {s t : State} (h : s.TilesAgree) (htile : t.tile = s.tile)
    (hmem : ∀ k, t.mem.read .vram k = s.mem.read .vram k) : t.TilesAgree := by
  intro i hi r hr
  rw [State.tileRow, htile, hmem, hmem]
  exact h i hi r hr

/-- A tile is sixteen bytes of tile data (R5, R28). -/
theorem tileBoundary_eq : tileBoundary = 16 * nTiles := rfl

/-- A byte write recomputes the row of the pair it stores to and leaves every other row with its pair (R191). -/
theorem writeByte_tilesAgree (a : Addr) (v : Byte) {s : State} (h : s.TilesAgree) : (writeByte a v s).TilesAgree := by
  have hb := tileBoundary_eq
  rw [State.tilesAgree_iff] at *
  intro j hj
  by_cases hrow : s.storesRow a j
  · exact writeByte_tile_of_storesRow v hrow
  · rw [writeByte_tile_of_not_storesRow v hrow, h j hj]
    refine videoRow_congr fun k hk => ?_
    have hcell : s.storeCell a ≠ some (.vram, k) := fun hc => hrow ⟨k, hc, by omega, hk⟩
    rw [writeByte_read, if_neg hcell]

theorem effectOf_tilesAgree (i : Instr) {s : State} (h : s.TilesAgree) : (effectOf i s).TilesAgree := by
  cases i with
  | rb a => exact h
  | rw a => exact h
  | wb a v => exact writeByte_tilesAgree a v h
  | ww a w => exact writeByte_tilesAgree _ _ (writeByte_tilesAgree _ _ h)

theorem service_tilesAgree {s t : State} (h : s.TilesAgree) (hs : service s = .next t) : t.TilesAgree := by
  obtain ⟨-, p, rest, -, he⟩ := service_next hs
  have taken : (takeHead p rest s).TilesAgree := h
  obtain ⟨-, ⟨-, -, rfl⟩ | ⟨-, -, rfl⟩ | ⟨-, rfl⟩⟩ := exec_next _ _ _ he
  · exact effectOf_tilesAgree _ taken
  · exact taken
  · exact taken

theorem busInvariant_tilesAgree : BusInvariant State.TilesAgree where
  onSubmit _ _ _ _ _ h := h
  onService _ _ h hs := service_tilesAgree h hs
  onRaise _ _ _ h := h
  ofSame _ _ e h := h.of_read e.tile fun _ => by rw [e.mem]

/-- After reset every row is zero, as is the tile data of an initial content without any (R35, R195). -/
theorem resetWith_tilesAgree {c : Config} (h : ∀ k < tileBoundary, c.ramInit.read .vram k = 0) :
    (State.resetWith c).TilesAgree := by
  intro i hi r hr
  have hb := tileBoundary_eq
  have hzero : ∀ k < tileBoundary, (State.resetWith c).mem.read .vram k = 0 := h
  rw [hzero _ (by omega), hzero _ (by omega)]
  rfl

/-- The bus moves and the tick go through the byte write, the loads reach other arrays, and reset clears both sides. -/
theorem applyMove_tilesAgree {m : Move} {s t : State} (hm : m ≠ .tileReset)
    (hzero : ∀ k < tileBoundary, s.cfg.ramInit.read .vram k = 0) (h : applyMove m s = .next t) (hs : s.TilesAgree) :
    t.TilesAgree := by
  have hP := busInvariant_tilesAgree
  cases m with
  | submit p w => exact hP.submit_keeps h hs
  | submitBoth wP wG => exact hP.submitBoth_keeps h hs
  | service => exact service_tilesAgree hs h
  | transact p w => exact hP.transact_keeps h hs
  | tick => exact hP.tick_keeps h hs
  | reset =>
    cases h
    exact (resetWith_tilesAgree hzero).of_read rfl fun _ => rfl
  | loadBoot b =>
    obtain ⟨-, rfl⟩ := hostEvent_next h
    exact hs.of_read rfl fun k => by simp [loadBoot, Storage.read_load]
  | loadRom b =>
    obtain ⟨-, rfl⟩ := hostEvent_next h
    exact hs.of_read rfl fun k => by simp [loadRom, Storage.read_load]
  | setInBoot b | sever =>
    obtain ⟨-, rfl⟩ := hostEvent_next h
    exact hs
  | tileReset => exact absurd rfl hm

/-- Settles O15: the step's move is applied to a state with the cache, the storage and the configuration it starts from. -/
theorem tileCacheStaysCoherent : Obligations.TileCacheStaysCoherent := by
  unfold Obligations.TileCacheStaysCoherent
  intro s t hs hzero hm h
  obtain ⟨ms, d, e⟩ := nextMove_frame s
  have hstart : (nextMove s).2.TilesAgree := by
    rw [e]
    exact hs
  have hcfg : (nextMove s).2.cfg = s.cfg := by
    rw [e]
    rfl
  have hmove : applyMove (nextMove s).1 (nextMove s).2 = .next t := h
  exact applyMove_tilesAgree hm (by rwa [hcfg]) hmove hstart

end Sys2Proof.Machine
end

/-! Proofs: sprite records, the selection of a line's sprites, and the sprite copy (R97, R210 to R214, R325) -/

section
namespace Sys2Proof.Machine

/-! Sprite records and their selection -/

theorem spriteVisible_iff (r : SpriteRec) (l : Nat) :
    spriteVisible r l = true ↔ r.y.toNat ≤ l + 16 ∧ l + 16 < r.y.toNat + 8 := by
  rw [spriteVisible, Bool.and_eq_true, decide_eq_true_iff, decide_eq_true_iff]

/-- Settles O48: visibility is the two inequalities, and each flag is one bit of the flags byte. -/
theorem spriteRecordRules : Obligations.SpriteRecordRules := by
  unfold Obligations.SpriteRecordRules
  refine ⟨fun r l => ?_, fun r l hy => ?_, fun r hflags => ?_⟩
  · rw [spriteVisible_iff]
    omega
  · rw [spriteVisible_iff, hy, show (16 : Byte).toNat = 16 from rfl]
    omega
  · rw [SpriteRec.priority, SpriteRec.yFlip, SpriteRec.xFlip, SpriteRec.paletteSelect, hflags]
    decide

/-- What the first k entries of an ordered list leave out comes after k entries, each in order before it. -/
theorem take_before_of_not_mem {α : Type} {r : α → α → Prop} {l : List α} (h : l.Pairwise r) {k : Nat} {n : α}
    (hn : n ∈ l) (hleft : n ∉ l.take k) : (l.take k).length = k ∧ ∀ m ∈ l.take k, r m n := by
  rw [← List.take_append_drop k l] at h hn
  have hdrop : n ∈ l.drop k := (List.mem_append.mp hn).resolve_left hleft
  have hpos := List.length_pos_of_mem hdrop
  rw [List.length_drop] at hpos
  exact ⟨List.length_take_of_le (by omega), fun m hm => (List.pairwise_append.mp h).2.2 m hm n hdrop⟩

/-- Settles O49: the candidates are the visible, unconsumed records in table order, and the list is the first ten. -/
theorem scanlineSelectsFirstTen : Obligations.ScanlineSelectsFirstTen := by
  unfold Obligations.ScanlineSelectsFirstTen
  intro t l
  obtain ⟨hsorted, hten⟩ := scanline_ok t l
  refine ⟨hsorted, hten, scanline_visible t l, fun n hvis hcons hleft => ?_⟩
  have hn : n ∈ (List.finRange 40).filter fun n => spriteVisible t.recs[n] l && !t.consumed[n] :=
    List.mem_filter.mpr ⟨List.mem_finRange n, by rw [hvis, hcons]; rfl⟩
  exact take_before_of_not_mem ((List.pairwise_lt_finRange 40).filter _) hn hleft

/-! The words of the sprite copy -/

/-- The half of a record that word k of the copy is (R96, R212). -/
def SpriteRec.word (r : SpriteRec) (k : Nat) : Word := if k % 2 = 0 then joinBytes r.x r.y else joinBytes r.flags r.tile

theorem SpriteTable.scannedWord_of_lt (t : SpriteTable) {k : Nat} (hk : k < 80) :
    t.scannedWord k = t.recs[(⟨k / 2, by omega⟩ : Fin 40)].word k := by
  have hrec : k / 2 < 40 := by omega
  rw [SpriteTable.scannedWord, Vector.getElem?_eq_getElem hrec]
  rfl

theorem SpriteTable.scannedWord_congr {t u : SpriteTable} (h : t.recs = u.recs) (k : Nat) :
    t.scannedWord k = u.scannedWord k := by
  rw [SpriteTable.scannedWord, h]
  rfl

/-- A scanned word is the half of the record it was stored for, and the other half is kept (R212). -/
theorem storeScanned_word (c k : Nat) (w : Word) (r : SpriteRec) :
    (storeScanned c w r).word k = if k % 2 = c % 2 then w else r.word k := by
  simp only [storeScanned, SpriteRec.word]
  obtain hc | hc := Nat.mod_two_eq_zero_or_one c
  · obtain hk | hk := Nat.mod_two_eq_zero_or_one k
    · simp [hc, hk, joinBytes_halves]
    · simp [hc, hk]
  · obtain hk | hk := Nat.mod_two_eq_zero_or_one k
    · simp [hc, hk]
    · simp [hc, hk, joinBytes_halves]

/-- The scan takes its one word from OAM and keeps the other words of the copy (R212). -/
theorem State.scanned_scannedWord {s : State} (hc : s.timer.counter.toNat < 80) {k : Nat} (hk : k < 80) :
    s.scanned.sprites.scannedWord k =
      if k = s.timer.counter.toNat then s.oamWord k else s.sprites.scannedWord k := by
  rw [SpriteTable.scannedWord_of_lt _ hk, SpriteTable.scannedWord_of_lt _ hk, State.scanned_recs hc]
  by_cases hkc : k = s.timer.counter.toNat
  · rw [if_pos hkc, if_pos (congrArg (· / 2) hkc), storeScanned_word, if_pos (congrArg (· % 2) hkc), hkc]
  · rw [if_neg hkc]
    split
    next hrec =>
      have hrec' : k / 2 = s.timer.counter.toNat / 2 := hrec
      rw [storeScanned_word, if_neg (by omega)]
    next => rfl

/-! The progress of the scan -/

theorem State.scannedCount_of_oamScan {s : State} (hm : s.timer.mode = .oamScan) :
    s.scannedCount = s.timer.counter.toNat := by
  rw [State.scannedCount, hm]

theorem State.scannedCount_of_pixelTransfer {s : State} (hm : s.timer.mode = .pixelTransfer) : s.scannedCount = 80 := by
  rw [State.scannedCount, hm]

theorem enterMode_scannedCount (m : Mode) (s : State) :
    (enterMode m s).scannedCount = if m = .pixelTransfer then 80 else 0 := by
  cases m <;> rfl

/-- Under a lock of both active modes OAM is unlocked only where no word of the copy is asked for (R70). -/
theorem State.scannedCount_eq_zero_of_unlocked {s : State} (hscan : s.cfg.oamLockModes.contains .oamScan = true)
    (hxfer : s.cfg.oamLockModes.contains .pixelTransfer = true) (hl : s.oamLocked = false) : s.scannedCount = 0 := by
  rw [State.oamLocked] at hl
  cases hm : s.timer.mode with
  | oamScan => rw [hm, hscan] at hl; cases hl
  | pixelTransfer => rw [hm, hxfer] at hl; cases hl
  | hBlank => rw [State.scannedCount, hm]
  | vBlank => rw [State.scannedCount, hm]

theorem State.scanAgrees_of_count_zero {s : State} (h : s.scannedCount = 0) : s.ScanAgrees := by
  intro _ _ k hk
  rw [h] at hk
  cases hk

/-- The copy is the same, OAM is the same where it was locked, and no further word is asked for. -/
structure ScanKept (s t : State) : Prop where
  cfg : t.cfg = s.cfg
  recs : t.sprites.recs = s.sprites.recs
  oam : s.oamLocked = true → ∀ k, t.mem.read .oam k = s.mem.read .oam k
  count : t.scannedCount ≤ s.scannedCount

theorem ScanKept.scanAgrees {s t : State} (e : ScanKept s t) (h : s.ScanAgrees) : t.ScanAgrees := by
  intro hscan hxfer k hk
  rw [e.cfg] at hscan hxfer
  have hk' : k < s.scannedCount := hk.trans_le e.count
  have hlocked : s.oamLocked = true := by
    by_contra hl
    rw [State.scannedCount_eq_zero_of_unlocked hscan hxfer (by simpa using hl)] at hk'
    cases hk'
  rw [SpriteTable.scannedWord_congr e.recs, h hscan hxfer k hk', State.oamWord, State.oamWord, e.oam hlocked, e.oam hlocked]

/-- With one more word scanned the copy agrees on one more word (R212). -/
theorem State.ScanAgrees.after_scan {s t : State} (h : s.ScanAgrees) (hm : s.timer.mode = .oamScan)
    (hc : s.timer.counter.toNat < 80) (hcfg : t.cfg = s.cfg) (hmem : t.mem = s.mem)
    (hrecs : t.sprites.recs = s.scanned.sprites.recs) (hcount : t.scannedCount = s.timer.counter.toNat + 1) :
    t.ScanAgrees := by
  intro hscan hxfer k hk
  rw [hcfg] at hscan hxfer
  rw [hcount] at hk
  have hoam : t.oamWord k = s.oamWord k := by rw [State.oamWord, hmem]; rfl
  rw [SpriteTable.scannedWord_congr hrecs, State.scanned_scannedWord hc (by omega), hoam]
  split
  next => rfl
  next hne => exact h hscan hxfer k (by rw [State.scannedCount_of_oamScan hm]; omega)

/-! The graphics tick -/

/-- On a severed channel with nothing pending the scan's read raises Fatal: the arbiter is all that changes (R156, R212). -/
theorem scanStep_severed (c : Nat) {s : State} (hf : s.arb.fatal = false) (ha : s.arb.alive = false)
    (hq : s.arb.queue = []) (hv : s.arb.reqG.valid = false) :
    ∃ b, scanStep c s = .next { s with arb := b } ∧ b.fatal = true := by
  rw [scanStep, busReadG, transact_alone .portG _ s hf hq hv, exec_severed _ _ (by simpa using hf) (by simpa using ha),
    thenRun_of_fatal rfl]
  exact ⟨_, rfl, rfl⟩

/-- On a severed channel the scan stops at its read: no word is stored and the timer stands still (R156, R291). -/
theorem oamScanTick_scanKept_of_severed {s t : State} (hf : s.arb.fatal = false) (ha : s.arb.alive = false)
    (hp : s.NothingPending) (h : oamScanTick s = .next t) : ScanKept s t := by
  obtain ⟨-, hv, hq⟩ := hp
  unfold oamScanTick at h
  split at h
  · obtain ⟨b, hb, hfatal⟩ := scanStep_severed s.timer.counter.toNat (s := newLine s) hf ha hq hv
    rw [hb, thenRun_of_fatal hfatal] at h
    cases h
    exact ⟨rfl, rfl, fun _ _ => rfl, Nat.le_refl _⟩
  · obtain ⟨b, hb, hfatal⟩ := scanStep_severed s.timer.counter.toNat hf ha hq hv
    rw [hb, thenRun_of_fatal hfatal] at h
    cases h
    exact ⟨rfl, rfl, fun _ _ => rfl, Nat.le_refl _⟩

/-- The dots of PixelTransfer leave the copy alone, and HBlank asks for no word of it (R173, R230). -/
theorem pixelTransferTick_scanKept {s t : State} (hmode : s.timer.mode = .pixelTransfer) (hmem : t.mem = s.mem)
    (h : pixelTransferTick s = .next t) : ScanKept s t := by
  obtain ⟨u, hd, ht⟩ := pixelTransferTick_next h
  have fr := dot_frame hd
  have oam : s.oamLocked = true → ∀ k, t.mem.read .oam k = s.mem.read .oam k := fun _ _ => by rw [hmem]
  have count : u.scannedCount = s.scannedCount := by
    rw [State.scannedCount_of_pixelTransfer hmode, State.scannedCount_of_pixelTransfer (fr.timer ▸ hmode)]
  have counted : (countOn u).scannedCount = s.scannedCount := by
    rw [State.scannedCount_of_pixelTransfer hmode, State.scannedCount_of_pixelTransfer (by simp [fr.timer, hmode])]
  obtain rfl | rfl | ⟨-, rfl⟩ := ht
  · exact ⟨fr.cfg, fr.recs, oam, count.le⟩
  · exact ⟨fr.cfg, fr.recs, oam, by simp [enterMode_scannedCount]⟩
  · exact ⟨fr.cfg, fr.recs, oam, counted.le⟩

theorem hBlankTick_scannedCount {s : State} (hmode : s.timer.mode = .hBlank) : (hBlankTick s).scannedCount = 0 := by
  unfold hBlankTick
  split
  · simp only
    split
    · rfl
    · rfl
  · simp [State.scannedCount, hmode]

theorem vBlankTick_scannedCount {s : State} (hmode : s.timer.mode = .vBlank) : (vBlankTick s).scannedCount = 0 := by
  unfold vBlankTick
  split
  · simp only
    split
    · rfl
    · rfl
  · simp [State.scannedCount, hmode]

/-- The scan on a live channel: one more word scanned and asked for, at the end of the mode all 80 (R172, R212). -/
theorem tick_scanAgrees_of_oamScan {s t : State} (hf : s.arb.fatal = false) (ha : s.arb.alive = true)
    (hp : s.NothingPending) (hm : s.timer.mode = .oamScan) (hc : s.timer.counter.toNat < 80)
    (hl : s.timer.line.toNat ≤ 153) (h : tick s = .next t) (hs : s.ScanAgrees) : t.ScanAgrees := by
  have hmem := (tick_sameStorage h).mem
  have hcfg := (romAndConfigWriters .tick s t h).1
  rw [tick_oamScan hf ha hp hm hc hl] at h
  by_cases h79 : s.timer.counter.toNat < 79
  · rw [if_pos h79] at h
    cases h
    have hnext : (s.timer.counter + 1).toNat = s.timer.counter.toNat + 1 := by bv_omega
    refine hs.after_scan hm hc hcfg hmem rfl ?_
    rw [State.scannedCount_of_oamScan (by simpa using hm), countOn_timer, State.scanned_timer, hnext]
  · rw [if_neg h79] at h
    cases h
    refine hs.after_scan hm hc hcfg hmem rfl ?_
    rw [endOamScan, enterMode_scannedCount, if_pos rfl]
    omega

theorem tick_scanAgrees {s t : State} (hok : s.timer.Ok) (h : tick s = .next t) (hs : s.ScanAgrees) : t.ScanAgrees := by
  obtain ⟨-, hcounter, -⟩ := hok
  obtain ⟨hf, hp, ⟨-, rfl⟩ | ⟨hl, ⟨hm, ht⟩ | ⟨hm, ht⟩ | ⟨hm, rfl⟩ | ⟨hm, rfl⟩⟩⟩ := tick_next h
  · exact hs
  · rw [hm] at hcounter
    cases ha : s.arb.alive with
    | true => exact tick_scanAgrees_of_oamScan hf ha hp hm hcounter hl h hs
    | false => exact (oamScanTick_scanKept_of_severed hf ha hp ht).scanAgrees hs
  · exact (pixelTransferTick_scanKept hm (tick_sameStorage h).mem ht).scanAgrees hs
  · exact State.scanAgrees_of_count_zero (hBlankTick_scannedCount hm)
  · exact State.scanAgrees_of_count_zero (vBlankTick_scannedCount hm)

/-! The moves and the step -/

/-- The moves other than a tick and a reset leave the copy and the timer alone, and OAM where it is locked (R70, R177). -/
theorem applyMove_scanKept {m : Move} {s t : State} (htick : m ≠ .tick) (hreset : m ≠ .reset)
    (h : applyMove m s = .next t) : ScanKept s t := by
  have e := applyMove_sameDisplay htick hreset h
  refine ⟨(romAndConfigWriters m s t h).1, by rw [e.sprites], fun hl => lockedOamUnchanged m s t hl hreset h, ?_⟩
  rw [State.scannedCount, e.timer]
  rfl

theorem applyMove_scanAgrees {m : Move} {s t : State} (hok : s.timer.Ok) (h : applyMove m s = .next t)
    (hs : s.ScanAgrees) : t.ScanAgrees := by
  by_cases htick : m = .tick
  · subst htick
    exact tick_scanAgrees hok h hs
  · by_cases hreset : m = .reset
    · subst hreset
      cases h
      exact State.scanAgrees_of_count_zero rfl
    · exact (applyMove_scanKept htick hreset h).scanAgrees hs

/-- Settles O40: a tick of OAMScan scans the one word it moves the counter past, and every other move leaves the copy, and
OAM while a word is asked for, as they are. -/
theorem spriteCopyAgrees : Obligations.SpriteCopyAgrees := by
  unfold Obligations.SpriteCopyAgrees
  intro s t hinv hs h
  have hmove : applyMove (nextMove s).1 (nextMove s).2 = .next t := h
  have hstart : (nextMove s).2.ScanAgrees := by
    obtain ⟨ms, d, e⟩ := nextMove_frame s
    rw [e]
    exact hs
  obtain ⟨hok, -⟩ := nextMove_inv hinv
  exact applyMove_scanAgrees hok hmove hstart

end Sys2Proof.Machine
end

/-! Proofs: the line reset, the dot, and the fetch and enqueue stages (R230 to R237) -/

section
namespace Sys2Proof.Machine

/-! The line reset and the dot -/

/-- A line reset takes each slot's valid bit and keeps its other bits (R231). -/
theorem fifoInvalid_get (f : Vector Slot 16) (k : Fin 16) : (fifoInvalid f)[k] = { f[k] with valid := false } := by
  obtain ⟨k, hk⟩ := k
  interval_cases k <;> rfl

/-- Once the line is complete a dot does nothing (R232). -/
theorem dot_of_lineComplete {s : State} (h : lineW ≤ s.pipe.outCol.toNat) : dot s = .next s := if_pos h

/-- A dot of an unfinished line starts with the fetch stage (R230). -/
theorem dot_of_lineOpen {s : State} (h : s.pipe.outCol.toNat < lineW) :
    dot s = thenRun (fetchStage s) fun u => emitStage (enqueueStage u) := if_neg (Nat.not_le.mpr h)

/-- Settles O50: the reset writes every register of the pipeline, and the column alone decides whether a dot runs. -/
theorem lineStartAndEnd : Obligations.LineStartAndEnd := by
  unfold Obligations.LineStartAndEnd
  intro s
  refine ⟨rfl, ⟨rfl, rfl, rfl, rfl, rfl, rfl, rfl, rfl⟩, fifoInvalid_get s.pipe.fifo, fun c => rfl,
    dot_of_lineComplete, fun u ho hu hf => ?_, fun u ho hu hf => ?_⟩
  · rw [dot_of_lineOpen ho, hu, thenRun_of_fatal hf]
  · rw [dot_of_lineOpen ho, hu, thenRun_of_running hf]

/-! The fetch stage -/

/-- The two background addresses stay below 2^16 (R6, R234, R235). -/
theorem bgMapAddr_of_default {c : Config} (h : c.bgMap = []) (line : BitVec 8) (x : BitVec 5) :
    (bgMapAddr c line x).toNat = 0x9800 + 32 * (line.toNat / 8) + x.toNat := by
  rw [bgMapAddr, h, Sparse.get, BitVec.toNat_ofNat]
  omega

theorem bgDataAddr_of_default {c : Config} (h : c.bgData = []) (n : Byte) (line : BitVec 8) :
    (bgDataAddr c n line).toNat = 0x8000 + 16 * n.toNat + 2 * (line.toNat % 8) := by
  rw [bgDataAddr, h, Sparse.get, BitVec.toNat_ofNat]
  omega

/-- The byte in the response to a port-G byte read (R146, R150). -/
theorem lowByte_readRspG_rb (a : Addr) (s : State) : lowByte (readRspG (.rb a) s).data = s.busByteG a := by
  have hread : readByte { s with arb := { s.arb with port := .portG } } .portG a = readByte s .portG a := rfl
  simp only [readRspG, rspOf, answerOf, State.busByteG, hread, Bool.and_eq_true]
  split
  · rfl
  · exact BitVec.setWidth_setWidth_of_le _ (by decide)

/-- A byte read on an idle port and a change of the fetcher that takes the byte (R8, R152). -/
theorem readByteThen_answered (a : Addr) (f : Byte → State → State) {s : State} (h : s.PortGIdle) :
    thenRun (busReadG (.rb a) s) (fun u => .next (f (lowByte (replyDataG u)) u)) =
      .next (f (s.busByteG a) { s with arb := s.arb.answeredG (encode (.rb a)) (readRspG (.rb a) s) }) := by
  rw [busReadG_answered rfl rfl h, thenRun_of_running (by exact h.1), ← lowByte_readRspG_rb]
  rfl

theorem fetchStage_enq {s : State} (h : s.pipe.fstate = .enq) : fetchStage s = .next s := by
  rw [fetchStage, h]

/-- The first dot of a pair only sets the phase (R233). -/
theorem fetchStage_firstDot {s : State} (h : s.pipe.fstate ≠ .enq) (hp : s.pipe.phase = false) :
    fetchStage s = .next (setPhase true s) := by
  rw [fetchStage, hp]
  cases hs : s.pipe.fstate with
  | enq => exact absurd hs h
  | resolve => rfl
  | low => rfl
  | high => rfl

/-- The second dot of a pair is the fetcher's step (R233 to R236). -/
theorem fetchStage_resolve {s : State} (h : s.pipe.fstate = .resolve) (hp : s.pipe.phase = true) :
    fetchStage s = resolveStep (setPhase false s) := by
  simp [fetchStage, h, hp]

theorem fetchStage_low {s : State} (h : s.pipe.fstate = .low) (hp : s.pipe.phase = true) :
    fetchStage s = lowStep (setPhase false s) := by
  simp [fetchStage, h, hp]

theorem fetchStage_high {s : State} (h : s.pipe.fstate = .high) (hp : s.pipe.phase = true) :
    fetchStage s = highStep (setPhase false s) := by
  simp [fetchStage, h, hp]

/-- Settles O51: each step's read on an idle port is answered with the byte at its address, which its register takes. -/
theorem fetchStageSteps : Obligations.FetchStageSteps := by
  unfold Obligations.FetchStageSteps
  refine ⟨fun c line x h => bgMapAddr_of_default h line x, fun c line n h => bgDataAddr_of_default h n line,
    fun s h => ⟨fetchStage_enq, fetchStage_firstDot, fun hs hp => ?_, fun hs hp => ?_, fun hs hp => ?_⟩⟩
  · exact ⟨_, (fetchStage_resolve hs hp).trans (readByteThen_answered _ gotTileNo h),
      Arbiter.answeredG_afterReadG _ _ _, rfl⟩
  · exact ⟨_, (fetchStage_low hs hp).trans (readByteThen_answered _ gotByte0 h),
      Arbiter.answeredG_afterReadG _ _ _, rfl⟩
  · exact ⟨_, (fetchStage_high hs hp).trans (readByteThen_answered _ gotByte1 h),
      Arbiter.answeredG_afterReadG _ _ _, rfl⟩

/-! The enqueue stage -/

/-- The enqueue stage when the fetcher is due and there is room (R237). -/
theorem enqueuePipe_due {q : Pipeline} (h : q.fstate = .enq) (hc : q.count.toNat ≤ 8) :
    enqueuePipe q = { q with
      fifo := fifoAppend q.fifo q.count.toNat (joinBytes q.byte0 q.byte1)
      count := q.count + 8
      fetchX := q.fetchX + 1
      fstate := .resolve
      phase := false } := if_pos ⟨h, hc⟩

/-- The enqueue stage otherwise (R237). -/
theorem enqueuePipe_waits {q : Pipeline} (h : q.fstate ≠ .enq ∨ 8 < q.count.toNat) : enqueuePipe q = q :=
  if_neg fun due => h.elim (· due.1) (Nat.not_lt.mpr due.2)

/-- Room for eight more leaves the level in range of its five bits. -/
theorem level_add_eight {c : BitVec 5} (h : c.toNat ≤ 8) : (c + 8).toNat = c.toNat + 8 := by bv_omega

/-- Settles O52: the row goes behind the slots counted, and the level, the tile column and the fetcher go on. -/
theorem enqueueAppendsRow : Obligations.EnqueueAppendsRow := by
  unfold Obligations.EnqueueAppendsRow
  refine fun s => ⟨fun h hc => ?_, fun h => by rw [enqueueStage, enqueuePipe_waits h]⟩
  rw [enqueueStage, enqueuePipe_due h hc]
  exact ⟨fun k => fifoAppend_get _ _ _ k, level_add_eight hc, BitVec.toNat_add _ _, rfl⟩

end Sys2Proof.Machine
end

/-! Proofs: the overlay of a sprite, the overlay stage, and the push (R238 to R243, R296) -/

section
namespace Sys2Proof.Machine

/-! One slot under a sprite -/

theorem readTile_get (s : State) (t : Fin nTiles) (r : Fin 8) : (readTile s t)[r] = s.tileRow t.val r.val := by
  obtain ⟨r, hr⟩ := r
  interval_cases r <;> rfl

/-- A visible sprite's row is the line's distance from its top, mirrored under yFlip (R241). -/
theorem spriteRow_of_visible {r : SpriteRec} {line : Nat} (h : spriteVisible r line = true) :
    ∃ k, spriteRow r line = some k ∧
      k.val = if r.flags.getLsbD 6 then 7 - (line + 16 - r.y.toNat) else line + 16 - r.y.toNat := by
  obtain ⟨hle, hlt⟩ := (spriteVisible_iff r line).mp h
  rw [spriteRow, if_pos hle]
  simp only
  rw [dif_pos (by omega)]
  refine ⟨_, rfl, ?_⟩
  unfold SpriteRec.yFlip
  split <;> rfl

/-- The pixel of sprite n at position k of its row on the current line (R241). -/
def State.spriteCode (s : State) (n : Fin 40) (k : Fin 16) : BitVec 2 :=
  let r := s.sprites.recs[n]
  let d := s.timer.line.toNat + 16 - r.y.toNat
  pix (s.tileRow r.tile.toNat (if r.flags.getLsbD 6 then 7 - d else d)) (if r.flags.getLsbD 5 then 7 - k.val else k.val)

theorem spritePixel_of_visible {n : Fin 40} {s : State}
    (hn : spriteVisible s.sprites.recs[n] s.timer.line.toNat = true) (k : Fin 16) :
    spritePixel s n k = some (s.spriteCode n k) := by
  obtain ⟨r, hr, hrow⟩ := spriteRow_of_visible hn
  rw [spritePixel, hr, Option.map_some, readTile_get, hrow]
  rfl

/-- The overlaid slot is the slot under the sprite's pixel (R240). -/
theorem State.overlaidSlot_eq (s : State) (n : Fin 40) (k : Fin 16) :
    s.overlaidSlot n k = overlaySlot s.pipe.fifo[k] s.sprites.recs[n] (s.spriteCode n k) := rfl

/-- The state with other slots in the FIFO. -/
def State.withFifo (s : State) (f : Vector Slot 16) : State := { s with pipe := { s.pipe with fifo := f } }

@[simp] theorem State.withFifo_withFifo (s : State) (f g : Vector Slot 16) :
    (s.withFifo f).withFifo g = s.withFifo g := rfl

/-- The slots with sprite n overlaid at some positions (R240). -/
def State.overlaidFifo (s : State) (n : Fin 40) (is : List (Fin 16)) : Vector Slot 16 :=
  Vector.ofFn fun k => if k ∈ is then s.overlaidSlot n k else s.pipe.fifo[k]

theorem State.overlaidFifo_get (s : State) (n : Fin 40) (is : List (Fin 16)) (k : Fin 16) :
    (s.overlaidFifo n is)[k] = if k ∈ is then s.overlaidSlot n k else s.pipe.fifo[k] :=
  Vector.getElem_ofFn k.isLt

theorem fifo_ext {f g : Vector Slot 16} (h : ∀ k : Fin 16, f[k] = g[k]) : f = g :=
  Vector.ext fun k hk => h ⟨k, hk⟩

theorem State.overlaidFifo_nil (s : State) (n : Fin 40) : s.overlaidFifo n [] = s.pipe.fifo :=
  fifo_ext fun k => by rw [State.overlaidFifo_get, if_neg List.not_mem_nil]

/-- A slot that is still as it was takes the same pixel whatever the other slots have become. -/
theorem State.withFifo_overlaidSlot (s : State) (n : Fin 40) {f : Vector Slot 16} {k : Fin 16}
    (h : f[k] = s.pipe.fifo[k]) : (s.withFifo f).overlaidSlot n k = s.overlaidSlot n k := by
  rw [State.overlaidSlot_eq, State.overlaidSlot_eq, ← h]
  rfl

theorem State.overlaidFifo_cons (s : State) (n : Fin 40) {i : Fin 16} {is : List (Fin 16)} (h : i ∉ is) :
    (s.withFifo (s.overlaidFifo n [i])).overlaidFifo n is = s.overlaidFifo n (i :: is) := by
  refine fifo_ext fun k => ?_
  have hfirst := s.overlaidFifo_get n [i] k
  have hslot : (s.withFifo (s.overlaidFifo n [i])).pipe.fifo[k] = (s.overlaidFifo n [i])[k] := rfl
  rw [State.overlaidFifo_get, State.overlaidFifo_get, hslot]
  by_cases hk : k = i
  · subst hk
    rw [if_neg h, hfirst, if_pos List.mem_cons_self, if_pos List.mem_cons_self]
  · rw [if_neg (by simpa using hk)] at hfirst
    rw [hfirst, s.withFifo_overlaidSlot n hfirst]
    simp [hk]

/-! The overlay of one sprite -/

/-- A valid slot under a visible sprite is overlaid (R240). -/
theorem overlayAt_of_valid {n : Fin 40} {i : Fin 16} {s : State} (hv : s.pipe.fifo[i].valid = true)
    (hn : spriteVisible s.sprites.recs[n] s.timer.line.toNat = true) :
    overlayAt n i s = .next (s.withFifo (s.overlaidFifo n [i])) := by
  have hfifo : s.pipe.fifo.set i (s.overlaidSlot n i) = s.overlaidFifo n [i] := by
    refine fifo_ext fun k => ?_
    rw [State.overlaidFifo_get, Fin.getElem_fin, Vector.getElem_set]
    by_cases hk : k = i
    · simp [hk]
    · simp [hk, Fin.val_inj, Ne.symm hk]
  rw [overlayAt, if_pos hv, spritePixel_of_visible hn, ← hfifo]
  rfl

/-- An invalid slot raises Fatal (R242). -/
theorem overlayAt_of_invalid {i : Fin 16} {s : State} (n : Fin 40) (hv : s.pipe.fifo[i].valid = false) :
    overlayAt n i s = .next (raiseFatal .overlayEmptySlot s) := if_neg (by rw [hv]; decide)

/-- An overlay runs through the valid slots at its front and goes on behind it (R240). -/
theorem overlayFrom_append {n : Fin 40} {is : List (Fin 16)} (js : List (Fin 16)) {s : State}
    (hf : s.arb.fatal = false) (hn : spriteVisible s.sprites.recs[n] s.timer.line.toNat = true) (hd : is.Nodup)
    (hv : ∀ i ∈ is, s.pipe.fifo[i].valid = true) :
    overlayFrom n (is ++ js) s = overlayFrom n js (s.withFifo (s.overlaidFifo n is)) := by
  induction is generalizing s with
  | nil =>
    rw [State.overlaidFifo_nil]
    rfl
  | cons i is ih =>
    obtain ⟨hi, hd⟩ := List.nodup_cons.mp hd
    obtain ⟨u, hu⟩ : ∃ u, u = s.withFifo (s.overlaidFifo n [i]) := ⟨_, rfl⟩
    have hfirst : overlayAt n i s = .next u := hu ▸ overlayAt_of_valid (hv i List.mem_cons_self) hn
    have fr := overlayAt_frame hfirst
    have hfu : u.arb.fatal = false := by rw [hu]; exact hf
    have hrest : ∀ k ∈ is, u.pipe.fifo[k].valid = true := fun k hk =>
      (fr.valid k).trans (hv k (List.mem_cons_of_mem i hk))
    calc overlayFrom n (i :: is ++ js) s
        = thenRun (overlayAt n i s) (overlayFrom n (is ++ js)) := rfl
      _ = overlayFrom n (is ++ js) u := by rw [hfirst, thenRun_of_running hfu]
      _ = overlayFrom n js (u.withFifo (u.overlaidFifo n is)) :=
          ih hfu (by rw [fr.sprites, fr.timer]; exact hn) hd hrest
      _ = overlayFrom n js (s.withFifo (s.overlaidFifo n (i :: is))) := by
          rw [hu, State.withFifo_withFifo, State.overlaidFifo_cons s n hi]

/-- The positions of an overlay, in order: the eight oldest slots (R240). -/
def overlayPositions : List (Fin 16) := [0, 1, 2, 3, 4, 5, 6, 7]

theorem mem_overlayPositions : ∀ k : Fin 16, k ∈ overlayPositions ↔ k.val < 8 := by decide

theorem overlayPositions_nodup : overlayPositions.Nodup := by decide

/-- The positions before a position and those from it on. -/
theorem overlayPositions_split : ∀ i : Fin 16, i.val < 8 →
    overlayPositions = overlayPositions.take i ++ i :: overlayPositions.drop (i + 1) := by decide

theorem mem_overlayPositions_take :
    ∀ i k : Fin 16, i.val < 8 → (k ∈ overlayPositions.take i ↔ k < i) := by decide

/-- Settles O53: the eight positions are a run of valid slots with nothing behind it. -/
theorem overlayRule : Obligations.OverlayRule := by
  unfold Obligations.OverlayRule
  intro n s hf hn hv
  have hrun := overlayFrom_append [] hf hn overlayPositions_nodup fun k hk => hv k ((mem_overlayPositions k).mp hk)
  rw [List.append_nil] at hrun
  refine ⟨_, hrun, rfl, fun k => (s.overlaidFifo_get n overlayPositions k).trans ?_⟩
  rw [if_congr (mem_overlayPositions k) rfl rfl]

/-- Settles O54: the positions before the invalid slot are a run of valid slots, and the next one raises Fatal. -/
theorem emptySlotIsFatal : Obligations.EmptySlotIsFatal := by
  unfold Obligations.EmptySlotIsFatal
  intro n i s hf hi hn hbefore hinvalid
  obtain ⟨f, hfifo⟩ : ∃ f, f = s.overlaidFifo n (overlayPositions.take i) := ⟨_, rfl⟩
  have hget : ∀ k : Fin 16, f[k] = if k < i then s.overlaidSlot n k else s.pipe.fifo[k] := fun k => by
    rw [hfifo, State.overlaidFifo_get, if_congr (mem_overlayPositions_take i k hi) rfl rfl]
  have hslot : (s.withFifo f).pipe.fifo[i].valid = false := by
    rw [show (s.withFifo f).pipe.fifo[i] = s.pipe.fifo[i] from (hget i).trans (if_neg (lt_irrefl i)), hinvalid]
  have hraise : overlay n s = .next (raiseFatal .overlayEmptySlot (s.withFifo f)) :=
    calc overlay n s
        = overlayFrom n (overlayPositions.take i ++ i :: overlayPositions.drop (i + 1)) s :=
          congrArg (overlayFrom n · s) (overlayPositions_split i hi)
      _ = overlayFrom n (i :: overlayPositions.drop (i + 1)) (s.withFifo f) := by
          rw [hfifo]
          exact overlayFrom_append _ hf hn (overlayPositions_nodup.sublist (List.take_sublist _ _))
            fun k hk => hbefore k ((mem_overlayPositions_take i k hi).mp hk)
      _ = .next (raiseFatal .overlayEmptySlot (s.withFifo f)) := by
          rw [overlayFrom, overlayAt_of_invalid n hslot, thenRun_of_fatal rfl]
  exact ⟨_, hraise, rfl, rfl, hget, rfl⟩

/-! The overlay stage -/

/-- A listed sprite is taken when it is not consumed and its window starts at the output column (R239). -/
theorem overlayMatches_iff (s : State) (n : Fin 40) :
    overlayMatches s n = true ↔
      s.sprites.consumed[n] = false ∧ (s.sprites.recs[n].x.toNat : Int) - 8 = s.pipe.outCol.toNat := by
  rw [overlayMatches, Bool.and_eq_true, Bool.not_eq_true', beq_iff_eq]
  exact and_congr_right fun _ => by omega

theorem not_overlayMatches_iff (s : State) (n : Fin 40) :
    ¬ overlayMatches s n = true ↔
      s.sprites.consumed[n] = true ∨ (s.sprites.recs[n].x.toNat : Int) - 8 ≠ s.pipe.outCol.toNat := by
  rw [overlayMatches_iff, not_and_or, Bool.not_eq_false]

theorem overlayStage_of_none {s : State} (h : ∀ m ∈ s.sprites.vis, ¬ overlayMatches s m = true) :
    overlayStage s = .next s := by
  rw [overlayStage, List.find?_eq_none.mpr h]

/-- The first match is overlaid, and consumed where the overlay goes on (R215, R239). -/
theorem overlayStage_of_first {s : State} {n : Fin 40} {before after : List (Fin 40)}
    (hlist : s.sprites.vis = before ++ n :: after) (hbefore : ∀ m ∈ before, ¬ overlayMatches s m = true)
    (hn : overlayMatches s n = true) : overlayStage s = thenRun (overlay n s) fun u => .next (consume n u) := by
  have hfind : s.sprites.vis.find? (overlayMatches s) = some n :=
    List.find?_eq_some_iff_append.mpr ⟨hn, before, after, hlist, fun m hm => by simpa using hbefore m hm⟩
  rw [overlayStage, hfind]

theorem consume_consumed (n m : Fin 40) (s : State) :
    (consume n s).sprites.consumed[m] = if m = n then true else s.sprites.consumed[m] := by
  simp only [consume, Fin.getElem_fin, Vector.getElem_set, Fin.ext_iff, eq_comm (a := n.val)]

/-- Settles O55: the search finds the first listed match, and a fatal overlay ends the stage before the mark. -/
theorem firstMatchWins : Obligations.FirstMatchWins := by
  unfold Obligations.FirstMatchWins
  refine ⟨fun s h => overlayStage_of_none fun m hm => (not_overlayMatches_iff s m).mpr (h m hm), ?_⟩
  intro s u n before after hlist hbefore hfree hcol hu
  have hstage := overlayStage_of_first hlist (fun m hm => (not_overlayMatches_iff s m).mpr (hbefore m hm))
    ((overlayMatches_iff s n).mpr ⟨hfree, hcol⟩)
  rw [hu] at hstage
  refine ⟨fun hf => hstage.trans (thenRun_of_fatal hf), fun hf => ?_⟩
  refine ⟨consume n u, ?_, rfl, ?_, fun m hm => ?_, rfl, rfl⟩
  · exact hstage.trans (thenRun_of_running hf)
  · rw [consume_consumed, if_pos rfl]
  · rw [consume_consumed, if_neg hm]

/-! The gate and the push -/

theorem emitStage_of_gated {s : State} (h : s.pipe.count.toNat ≤ 8) : emitStage s = .next s :=
  if_neg (Nat.not_lt.mpr h)

theorem emitStage_of_open {s : State} (h : 8 < s.pipe.count.toNat) :
    emitStage s = thenRun (overlayStage s) fun u => .next (pushStage u) := if_pos h

/-- Settles O56: the level alone opens the gate, and the push reads the line, the slots and the column before it. -/
theorem pushRule : Obligations.PushRule := by
  unfold Obligations.PushRule
  intro s
  refine ⟨emitStage_of_gated, fun u hc hu hf => ?_, fun u hc hu hf => ?_, fun c => ?_, fun k => ?_,
    rfl, rfl, rfl, rfl⟩
  · rw [emitStage_of_open hc, hu, thenRun_of_fatal hf]
  · rw [emitStage_of_open hc, hu, thenRun_of_running hf]
  · exact Sparse.get_set _ _ _ _ c
  · have hk : k.val + 1 < 16 := by omega
    exact (fifoShift_get s.pipe.fifo ⟨k.val, by omega⟩).trans (dif_pos hk)

end Sys2Proof.Machine
end

/-! Proofs: the timeline of a line (R173, R245) -/

section
namespace Sys2Proof.Machine

/-- A sequence that did not raise Fatal ran both its parts (R291). -/
theorem thenRun_next_running {o : Result} {k : State → Result} {t : State} (h : thenRun o k = .next t)
    (hf : t.arb.fatal = false) : ∃ u, o = .next u ∧ u.arb.fatal = false ∧ k u = .next t := by
  obtain ⟨-, hfatal⟩ | hran := thenRun_next h
  · rw [hf] at hfatal
    cases hfatal
  · exact hran

/-! The timeline's own step -/

/-- The slots held after n dots of a line: those enqueued and not pushed (R245). -/
def lineLevel (n : Nat) : Nat := 8 * lineTiles n - lineColumn n

/-- The slots held on dot n between the enqueue stage and the push stage (R230). -/
def lineFilled (n : Nat) : Nat := 8 * lineTiles (n + 1) - lineColumn n

/-- The dots on which a tile is enqueued: dot 5 and dots 11 + 8k, 21 in all (R245). -/
abbrev EnqueueDot (n : Nat) : Prop := n = 5 ∨ (11 ≤ n ∧ n < 164 ∧ n % 8 = 3)

theorem lineTiles_of_ge {n : Nat} (h : 12 ≤ n) : lineTiles n = min (2 + (n - 12) / 8) 21 := by
  rw [lineTiles, if_neg (by omega), if_neg (by omega)]

theorem lineFetchDots_of_ge {n : Nat} (h : 12 ≤ n) : lineFetchDots n = n - min (12 + (n - 12) / 8 * 8) 164 := by
  rw [lineFetchDots, if_neg (by omega), if_neg (by omega)]

/-- On an enqueue dot the row is fetched and there is room for it, and the next tile's sub-cycle begins (R237, R245). -/
theorem EnqueueDot.succ {n : Nat} (h : EnqueueDot n) :
    5 ≤ lineFetchDots n ∧ lineLevel n ≤ 8 ∧ lineTiles n < 21 ∧ lineTiles (n + 1) = lineTiles n + 1 ∧
      lineFetchDots (n + 1) = 0 ∧ lineFilled n = lineLevel n + 8 := by
  obtain hlt | hge := Nat.lt_or_ge n 12
  · interval_cases n <;> revert h <;> decide
  · rw [lineFilled, lineLevel, lineTiles_of_ge hge, lineTiles_of_ge (Nat.le_succ_of_le hge), lineFetchDots_of_ge hge,
      lineFetchDots_of_ge (Nat.le_succ_of_le hge), lineColumn]
    omega

/-- On any other dot of an open line the row is not fetched or there is no room for it, and the sub-cycle goes on. -/
theorem succ_of_not_enqueueDot {n : Nat} (hn : n < 171) (h : ¬ EnqueueDot n) :
    (lineFetchDots n < 5 ∨ 8 < lineLevel n) ∧ lineTiles (n + 1) = lineTiles n ∧
      lineFetchDots (n + 1) = lineFetchDots n + 1 := by
  obtain hlt | hge := Nat.lt_or_ge n 12
  · interval_cases n <;> revert h <;> decide
  · rw [lineLevel, lineTiles_of_ge hge, lineTiles_of_ge (Nat.le_succ_of_le hge), lineFetchDots_of_ge hge,
      lineFetchDots_of_ge (Nat.le_succ_of_le hge), lineColumn]
    omega

/-- Up to dot 10 the gate is closed, and the column stands still (R238, R245). -/
theorem lineFilled_of_lt : ∀ n < 11, lineFilled n ≤ 8 ∧ lineColumn (n + 1) = lineColumn n := by decide

/-- On each of dots 11 to 170 the gate is open, and the column goes on by one (R238, R245). -/
theorem lineFilled_of_ge {n : Nat} (hn : 11 ≤ n) (hopen : n < 171) :
    8 < lineFilled n ∧ lineColumn (n + 1) = lineColumn n + 1 := by
  rw [lineFilled, lineTiles_of_ge (Nat.succ_le_succ hn), lineColumn, lineColumn]
  omega

theorem lineColumn_lt {n : Nat} (hn : n < 171) : lineColumn n < 160 := by
  rw [lineColumn]
  omega

/-! Where the pipeline stands -/

/-- The pipeline's column, level, tile column and fetcher. -/
structure Pipeline.Stands (q : Pipeline) (column level tile fetchDots : Nat) : Prop where
  outCol : q.outCol.toNat = column
  count : q.count.toNat = level
  fetchX : q.fetchX.toNat = tile
  fetcher : (q.fstate, q.phase) = fetcherAfter fetchDots

/-- The pipeline stands where n dots of a line put it (R245). -/
def Pipeline.OnDot (q : Pipeline) (n : Nat) : Prop :=
  q.Stands (lineColumn n) (lineLevel n) (lineTiles n) (lineFetchDots n)

theorem State.onSchedule_iff (s : State) :
    s.OnSchedule ↔ (s.arb.fatal = false → s.timer.mode = .pixelTransfer → s.pipe.OnDot s.timer.counter.toNat) :=
  forall₂_congr fun _ _ =>
    ⟨fun ⟨hcol, hcount, htile, hfetcher⟩ => ⟨hcol, hcount, htile, hfetcher⟩,
      fun ⟨hcol, hcount, htile, hfetcher⟩ => ⟨hcol, hcount, htile, hfetcher⟩⟩

/-- A line starts on its dot 0 (R231). -/
theorem lineResetPipe_onDot (q : Pipeline) : (lineResetPipe q).OnDot 0 := ⟨rfl, rfl, rfl, rfl⟩

section stages

variable {c k x d : Nat}

/-! The fetch stage -/

/-- The fetcher one dot on: two dots a step, then waiting in ENQ (R233). -/
def fetcherNext : FState × Bool → FState × Bool
  | (.enq, b) => (.enq, b)
  | (f, false) => (f, true)
  | (.resolve, true) => (.low, false)
  | (.low, true) => (.high, false)
  | (.high, true) => (.enq, false)

theorem fetcherNext_firstDot {f : FState} (h : f ≠ .enq) : fetcherNext (f, false) = (f, true) := by
  cases f with
  | enq => exact absurd rfl h
  | resolve | low | high => rfl

theorem fetcherNext_fetcherAfter (d : Nat) : fetcherNext (fetcherAfter d) = fetcherAfter (d + 1) :=
  match d with
  | 0 | 1 | 2 | 3 | 4 | 5 | _ + 6 => rfl

theorem fetcherAfter_enq_iff (d : Nat) : (fetcherAfter d).1 = .enq ↔ 6 ≤ d :=
  match d with
  | 0 | 1 | 2 | 3 | 4 | 5 => by decide
  | d + 6 => ⟨fun _ => Nat.le_add_left 6 d, fun _ => rfl⟩

/-- A read that did not end the step is followed by the change of the fetcher (R291). -/
theorem readThen_running {i : Instr} {f : State → State} {s t : State}
    (h : thenRun (busReadG i s) (fun u => .next (f u)) = .next t) (hf : t.arb.fatal = false) :
    ∃ u, u.pipe = s.pipe ∧ t = f u := by
  obtain ⟨u, hu, -, hnext⟩ := thenRun_next_running h hf
  cases hnext
  exact ⟨u, (transact_frame hu).pipe, rfl⟩

/-- A fetch stage that did not end the step takes the fetcher one dot on (R233 to R236). -/
theorem fetchStage_fetcher {s t : State} (h : fetchStage s = .next t) (hf : t.arb.fatal = false) :
    (t.pipe.fstate, t.pipe.phase) = fetcherNext (s.pipe.fstate, s.pipe.phase) := by
  by_cases hs : s.pipe.fstate = .enq
  · rw [fetchStage_enq hs] at h
    cases h
    rw [hs]
    rfl
  · cases hp : s.pipe.phase with
    | false =>
      rw [fetchStage_firstDot hs hp] at h
      cases h
      rw [fetcherNext_firstDot hs]
      rfl
    | true =>
      cases hstep : s.pipe.fstate with
      | enq => exact absurd hstep hs
      | resolve =>
        rw [fetchStage_resolve hstep hp] at h
        obtain ⟨u, hu, rfl⟩ := readThen_running (f := fun u => gotTileNo (lowByte (replyDataG u)) u) h hf
        simp [gotTileNo, fetcherNext, hu]
      | low =>
        rw [fetchStage_low hstep hp] at h
        obtain ⟨u, hu, rfl⟩ := readThen_running (f := fun u => gotByte0 (lowByte (replyDataG u)) u) h hf
        simp [gotByte0, fetcherNext, hu]
      | high =>
        rw [fetchStage_high hstep hp] at h
        obtain ⟨u, hu, rfl⟩ := readThen_running (f := fun u => gotByte1 (lowByte (replyDataG u)) u) h hf
        simp [gotByte1, fetcherNext, hu]

theorem fetchStage_stands {s t : State} (h : fetchStage s = .next t) (hf : t.arb.fatal = false)
    (hs : s.pipe.Stands c k x d) : t.pipe.Stands c k x (d + 1) := by
  have fr := fetchStage_frame h
  exact ⟨fr.outCol ▸ hs.outCol, fr.count ▸ hs.count, fr.fetchX ▸ hs.fetchX,
    by rw [fetchStage_fetcher h hf, hs.fetcher, fetcherNext_fetcherAfter]⟩

/-! The enqueue stage -/

/-- The fetcher is due when six dots of its sub-cycle have run. -/
theorem Pipeline.Stands.enq_iff {q : Pipeline} (h : q.Stands c k x d) : q.fstate = .enq ↔ 6 ≤ d := by
  rw [← fetcherAfter_enq_iff, ← h.fetcher]

theorem enqueuePipe_stands_of_due {q : Pipeline} (h : q.Stands c k x d) (hd : 6 ≤ d) (hk : k ≤ 8) (hx : x < 31) :
    (enqueuePipe q).Stands c (k + 8) (x + 1) 0 := by
  have hdue := h.enq_iff.mpr hd
  obtain ⟨hcol, hcount, htile, -⟩ := h
  have hroom : q.count.toNat ≤ 8 := by omega
  rw [enqueuePipe_due hdue hroom]
  refine ⟨hcol, by simp only [level_add_eight hroom, hcount], ?_, rfl⟩
  simp only
  bv_omega

theorem enqueuePipe_stands_of_waits {q : Pipeline} (h : q.Stands c k x d) (hw : d < 6 ∨ 8 < k) :
    (enqueuePipe q).Stands c k x d := by
  rw [enqueuePipe_waits]
  · exact h
  · rw [Ne, h.enq_iff, h.count]
    omega

/-- The enqueue stage fills the FIFO as the timeline says (R237, R245). -/
theorem enqueuePipe_onDot {q : Pipeline} {n : Nat} (hn : n < 171)
    (h : q.Stands (lineColumn n) (lineLevel n) (lineTiles n) (lineFetchDots n + 1)) :
    (enqueuePipe q).Stands (lineColumn n) (lineFilled n) (lineTiles (n + 1)) (lineFetchDots (n + 1)) := by
  by_cases he : EnqueueDot n
  · obtain ⟨hd, hk, hx, etile, edots, elevel⟩ := he.succ
    rw [etile, edots, elevel]
    exact enqueuePipe_stands_of_due h (Nat.succ_le_succ hd) hk (hx.trans (by decide))
  · obtain ⟨hw, etile, edots⟩ := succ_of_not_enqueueDot hn he
    have elevel : lineFilled n = lineLevel n := by rw [lineFilled, lineLevel, etile]
    rw [etile, edots, elevel]
    exact enqueuePipe_stands_of_waits h (hw.imp_left Nat.succ_lt_succ)

/-! The overlay and the push -/

/-- An overlay changes slots only (R240). -/
theorem SameButSlots.stands {s t : State} (e : SameButSlots s t) (h : s.pipe.Stands c k x d) :
    t.pipe.Stands c k x d := by
  rw [← e.pipe] at h
  exact ⟨h.outCol, h.count, h.fetchX, h.fetcher⟩

theorem overlayStage_stands {s t : State} (h : overlayStage s = .next t) (hs : s.pipe.Stands c k x d) :
    t.pipe.Stands c k x d := by
  obtain ⟨-, rfl⟩ | ⟨n, u, -, hu, ⟨-, rfl⟩ | ⟨-, rfl⟩⟩ := overlayStage_next h
  · exact hs
  · exact (overlayFrom_frame _ hu).stands hs
  · exact (overlayFrom_frame _ hu).stands hs

/-- The push lowers the level and advances the column by one (R243). -/
theorem pushPipe_stands {q : Pipeline} (h : q.Stands c k x d) (hc : c < 160) (hk : 8 < k) :
    (pushPipe q).Stands (c + 1) (k - 1) x d := by
  obtain ⟨hcol, hcount, htile, hfetcher⟩ := h
  refine ⟨?_, ?_, htile, hfetcher⟩
  · simp only [pushPipe]
    bv_omega
  · simp only [pushPipe]
    bv_omega

theorem emitStage_stands_of_gated {s t : State} (h : emitStage s = .next t) (hs : s.pipe.Stands c k x d)
    (hk : k ≤ 8) : t.pipe.Stands c k x d := by
  rw [emitStage_of_gated (hs.count ▸ hk)] at h
  cases h
  exact hs

theorem emitStage_stands_of_open {s t : State} (h : emitStage s = .next t) (hf : t.arb.fatal = false)
    (hs : s.pipe.Stands c k x d) (hc : c < 160) (hk : 8 < k) : t.pipe.Stands (c + 1) (k - 1) x d := by
  rw [emitStage_of_open (hs.count ▸ hk)] at h
  obtain ⟨u, hu, -, hnext⟩ := thenRun_next_running h hf
  cases hnext
  exact pushPipe_stands (overlayStage_stands hu hs) hc hk

end stages

/-! The dot -/

/-- The dot after the line is complete moves nothing, and the timeline neither: the fetcher waits (R232, R245). -/
theorem Pipeline.OnDot.succ_of_complete {q : Pipeline} (h : q.OnDot 171) : q.OnDot 172 :=
  ⟨h.outCol, h.count, h.fetchX, h.fetcher⟩

/-- A dot that did not end the step takes the pipeline one dot on along the timeline (R230, R245). -/
theorem dot_onDot {n : Nat} {s t : State} (hn : n < 172) (h : dot s = .next t) (hf : t.arb.fatal = false)
    (hs : s.pipe.OnDot n) : t.pipe.OnDot (n + 1) := by
  by_cases hend : n = 171
  · subst hend
    rw [dot_of_lineComplete hs.outCol.ge] at h
    cases h
    exact hs.succ_of_complete
  · have hopen : n < 171 := by omega
    have hcol := lineColumn_lt hopen
    rw [dot_of_lineOpen (hs.outCol ▸ hcol)] at h
    obtain ⟨u, hu, hfu, hemit⟩ := thenRun_next_running h hf
    have hfilled : (enqueueStage u).pipe.Stands _ _ _ _ := enqueuePipe_onDot hopen (fetchStage_stands hu hfu hs)
    by_cases hpush : 11 ≤ n
    · obtain ⟨hk, ecol⟩ := lineFilled_of_ge hpush hopen
      rw [Pipeline.OnDot, lineLevel, ecol, ← Nat.sub_sub]
      exact emitStage_stands_of_open hemit hf hfilled hcol hk
    · obtain ⟨hk, ecol⟩ := lineFilled_of_lt n (Nat.not_le.mp hpush)
      rw [Pipeline.OnDot, lineLevel, ecol]
      exact emitStage_stands_of_gated hemit hfilled hk

/-! The tick of PixelTransfer -/

/-- A tick of PixelTransfer that did not raise Fatal ran its dot and moved the timer (R173). -/
theorem tick_pixelTransfer {s t : State} (hl : s.timer.line.toNat ≤ 153) (hm : s.timer.mode = .pixelTransfer)
    (h : tick s = .next t) (hf : t.arb.fatal = false) :
    ∃ u, dot s = .next u ∧ u.arb.fatal = false ∧ t.pipe = u.pipe ∧
      (s.timer.counter.toNat < 171 → t.timer = { s.timer with counter := s.timer.counter + 1 }) ∧
      (171 ≤ s.timer.counter.toNat → t.timer.mode = .hBlank) := by
  obtain ⟨hfs, hp, -⟩ := tick_next h
  have hmode : pixelTransferTick s = .next t := by rw [← h, tick_runs s hfs hp hl, modeTick, hm]
  obtain ⟨u, hu, -⟩ := pixelTransferTick_next hmode
  obtain ⟨hfatal, hwithin, hend⟩ := ModeTimer.pixelTransferTick s u hfs hp hl hm hu
  rw [h] at hfatal hwithin hend
  refine ⟨u, hu, ?_⟩
  cases hfu : u.arb.fatal with
  | true =>
    cases hfatal hfu
    rw [hf] at hfu
    cases hfu
  | false =>
    by_cases hc : s.timer.counter.toNat < 171
    · cases hwithin hfu hc
      exact ⟨rfl, rfl, fun _ => rfl, fun hge => absurd hc (Nat.not_lt.mpr hge)⟩
    · cases hend hfu (Nat.not_lt.mp hc)
      exact ⟨rfl, rfl, fun hlt => absurd hlt hc, fun _ => rfl⟩

theorem counter_succ_toNat {c : BitVec 9} (h : c.toNat < 171) : (c + 1).toNat = c.toNat + 1 := by bv_omega

/-! The moves and the step -/

theorem State.onSchedule_of_mode {s : State} (h : s.timer.mode ≠ .pixelTransfer) : s.OnSchedule :=
  fun _ hm => absurd hm h

/-- The scan's end puts the pipeline on dot 0, and a dot moves it on as the counter moves (R172, R173, R245). -/
theorem tick_onSchedule {s t : State} (hok : s.timer.Ok) (h : tick s = .next t) (hs : s.OnSchedule) :
    t.OnSchedule := by
  obtain ⟨hline, hcounter, -⟩ := hok
  obtain ⟨hfs, -, ⟨-, rfl⟩ | ⟨-, ⟨hmode, ht⟩ | ⟨hmode, -⟩ | ⟨hmode, rfl⟩ | ⟨hmode, rfl⟩⟩⟩ := tick_next h
  · intro hf
    cases hf
  · obtain ⟨u, e, ht⟩ := oamScanTick_next ht
    have humode : u.timer.mode ≠ .pixelTransfer := by simp [e.timer, hmode]
    obtain rfl | rfl | ⟨-, rfl⟩ := ht
    · exact State.onSchedule_of_mode humode
    · exact (State.onSchedule_iff _).mpr fun _ _ => lineResetPipe_onDot u.pipe
    · exact State.onSchedule_of_mode humode
  · rw [State.onSchedule_iff] at hs ⊢
    intro hf hmodet
    obtain ⟨u, hu, hfu, hpipe, hwithin, hend⟩ := tick_pixelTransfer hline hmode h hf
    rw [hmode] at hcounter
    have hc : s.timer.counter.toNat < 171 := by
      by_contra hge
      rw [hend (Nat.not_lt.mp hge)] at hmodet
      cases hmodet
    rw [hpipe, hwithin hc, counter_succ_toNat hc]
    exact dot_onDot hcounter hu hfu (hs hfs hmode)
  · exact State.onSchedule_of_mode (hBlankTick_mode hmode)
  · exact State.onSchedule_of_mode (vBlankTick_mode hmode)

/-- A move other than reset that answers a next state starts on a block that is not fatal (R291). -/
theorem applyMove_next_not_fatal {m : Move} {s t : State} (hreset : m ≠ .reset) (h : applyMove m s = .next t) :
    s.arb.fatal = false := by
  rw [← Bool.not_eq_true]
  intro hf
  obtain ⟨-, hstopped, -⟩ := fatalStopsEverything s hf
  rw [hstopped m hreset] at h
  cases h

theorem applyMove_onSchedule {m : Move} {s t : State} (hok : s.timer.Ok) (h : applyMove m s = .next t)
    (hs : s.OnSchedule) : t.OnSchedule := by
  by_cases htick : m = .tick
  · subst htick
    exact tick_onSchedule hok h hs
  · by_cases hreset : m = .reset
    · subst hreset
      cases h
      exact State.onSchedule_of_mode (by simp [hostReset, State.resetWith])
    · have e := applyMove_sameDisplay htick hreset h
      intro _
      rw [e.timer, e.pipe]
      exact hs (applyMove_next_not_fatal hreset h)

/-! The ticks of a line -/

/-- A running block n ticks into PixelTransfer, or at its end. -/
structure State.AtDot (s : State) (n : Nat) : Prop where
  running : s.Running
  pipe : s.pipe.OnDot n
  timer : n < 172 → s.timer.mode = .pixelTransfer ∧ s.timer.counter.toNat = n

theorem State.AtDot.tick {n : Nat} {s : State} (h : s.AtDot n) (hn : n < 172) :
    ∃ t, tick s = .next t ∧ t.AtDot (n + 1) := by
  obtain ⟨hrun, hpipe, htimer⟩ := h
  obtain ⟨hm, hc⟩ := htimer hn
  obtain ⟨t, ht, htrun⟩ := ticksKeepRunning s hrun
  obtain ⟨-, -, -, ⟨⟨hline, -⟩, -⟩, -⟩ := hrun
  obtain ⟨u, hu, hfu, epipe, hwithin, -⟩ := tick_pixelTransfer hline hm ht htrun.1
  refine ⟨t, ht, htrun, epipe ▸ dot_onDot hn hu hfu hpipe, fun hlt => ?_⟩
  have hc171 : s.timer.counter.toNat < 171 := by omega
  rw [hwithin hc171]
  exact ⟨hm, by rw [counter_succ_toNat hc171, hc]⟩

theorem State.AtDot.runTicks (m : Nat) {n : Nat} {s : State} (h : s.AtDot n) (hn : n + m ≤ 172) :
    ∃ t, Machine.runTicks m s = .next t ∧ t.AtDot (n + m) := by
  induction m generalizing n s with
  | zero => exact ⟨s, rfl, h⟩
  | succ m ih =>
    obtain ⟨u, hu, hat⟩ := h.tick (by omega)
    obtain ⟨t, ht, hend⟩ := ih hat (by omega)
    refine ⟨t, ?_, ?_⟩
    · rw [Machine.runTicks, hu, thenRun_of_running hat.running.1, ht]
    · rwa [Nat.add_right_comm] at hend

/-- Settles O47: every dot takes the pipeline one dot on along the timeline, so any number of ticks of a line does. -/
theorem lineTimeline : Obligations.LineTimeline := by
  unfold Obligations.LineTimeline
  refine ⟨fun s t hinv hs h => ?_, fun s hrun hm hc hp => ?_⟩
  · have hmove : applyMove (nextMove s).1 (nextMove s).2 = .next t := h
    have hstart : (nextMove s).2.OnSchedule := by
      obtain ⟨ms, d, e⟩ := nextMove_frame s
      rw [e]
      exact hs
    obtain ⟨hok, -⟩ := nextMove_inv hinv
    exact applyMove_onSchedule hok hmove hstart
  · have hstart : s.AtDot 0 := ⟨hrun, hp ▸ lineResetPipe_onDot s.pipe, fun _ => ⟨hm, by rw [hc]; rfl⟩⟩
    refine ⟨fun n hn => ?_, ?_⟩
    · obtain ⟨t, ht, hat⟩ := hstart.runTicks n (by omega)
      exact ⟨t, ht, by rw [hat.pipe.outCol, lineColumn, Nat.zero_add]⟩
    · obtain ⟨t, ht, hat⟩ := hstart.runTicks 172 (by omega)
      obtain ⟨hfstate, hphase⟩ := Prod.mk.inj hat.pipe.fetcher
      exact ⟨t, ht, hfstate, hphase, BitVec.eq_of_toNat_eq hat.pipe.count, BitVec.eq_of_toNat_eq hat.pipe.fetchX⟩

end Sys2Proof.Machine
end

/-! Proofs: the graphics tick writes nothing, and the host events (R193, R272, R274, R275, R277 to R279) -/

section
namespace Sys2Proof.Machine

/-- Settles O35: the graphics actor's operations are reads, so no stage of a tick stores anything. -/
theorem graphicsNeverWrites : Obligations.GraphicsNeverWrites := by
  unfold Obligations.GraphicsNeverWrites
  intro s t h
  obtain ⟨hmem, htile⟩ := tick_sameStorage h
  exact ⟨hmem, htile⟩

/-! The host events -/

theorem hostEvent_running (f : State → State) {s : State} (hf : s.arb.fatal = false) : hostEvent f s = .next (f s) := by
  rw [hostEvent, if_neg (by rw [hf]; decide)]

/-- A read after a window of an image, the `n` bytes from `off` on, has been stored at the start of an array. -/
theorem Storage.read_loadWindow (m : Storage) (a b : Arr) (off n k : Nat) (bytes : List Byte) :
    (m.load a 0 ((bytes.drop off).take n)).read b k =
      if b = a ∧ k < n ∧ k + off < bytes.length then bytes.getD (k + off) 0 else m.read b k := by
  rw [Storage.read_load]
  refine if_ctx_congr (and_congr_right fun _ => ?_) (fun hin => ?_) fun _ => rfl
  · rw [List.length_take, List.length_drop]
    omega
  · obtain ⟨-, hk, -⟩ := hin
    simp [hk, Nat.add_comm]

theorem loadBoot_read (bytes : List Byte) (s : State) (b : Arr) (k : Nat) :
    (loadBoot bytes s).mem.read b k =
      if b = .boot ∧ k < 256 ∧ k < bytes.length then bytes.getD k 0 else s.mem.read b k :=
  Storage.read_loadWindow s.mem .boot b 0 256 k bytes

/-- The window of rom0 and that of rom1 lie in different arrays, so the order of the two stores does not show (R275). -/
theorem loadRom_read (bytes : List Byte) (s : State) (b : Arr) (k : Nat) :
    (loadRom bytes s).mem.read b k =
      if b = .rom0 ∧ k < 0x4000 ∧ k < bytes.length then bytes.getD k 0
      else if b = .rom1 ∧ k < 0x4000 ∧ k + 0x4000 < bytes.length then bytes.getD (k + 0x4000) 0
      else s.mem.read b k := by
  have low : (s.mem.load .rom0 0 (bytes.take 0x4000)).read b k =
      if b = .rom0 ∧ k < 0x4000 ∧ k < bytes.length then bytes.getD k 0 else s.mem.read b k :=
    Storage.read_loadWindow s.mem .rom0 b 0 0x4000 k bytes
  rw [loadRom, Storage.read_loadWindow, low]
  refine ite_ite_comm _ _ _ _ fun hrom1 hrom0 => ?_
  cases hrom1.1.symm.trans hrom0.1

/-- Settles O57: each array takes its window of the image and keeps the cells the window does not reach. -/
theorem imageLoads : Obligations.ImageLoads := by
  unfold Obligations.ImageLoads
  intro s bytes hf
  exact ⟨⟨loadBoot bytes s, hostEvent_running _ hf, rfl, loadBoot_read bytes s⟩,
    loadRom bytes s, hostEvent_running _ hf, rfl, loadRom_read bytes s⟩

theorem tileResetAll_tileRow (s : State) (t r : Nat) : (tileResetAll s).tileRow t r = 0 := rfl

/-- Settles O58: on a block that is not fatal each event is its own update of the state. -/
theorem hostEventFrames : Obligations.HostEventFrames := by
  unfold Obligations.HostEventFrames
  intro s b hf
  exact ⟨hostEvent_running (setInBoot b) hf, hostEvent_running sever hf,
    tileResetAll s, hostEvent_running hostTileReset hf, rfl, tileResetAll_tileRow s⟩

end Sys2Proof.Machine
end

/-! Proofs: the unsupported signal and reset (R297, R320) -/

section
namespace Sys2Proof.Machine

/-! The unsupported signal -/

theorem region_spriteMemory_iff {s : State} {a : Addr} :
    s.region a = .spriteMemory ↔ 0xFE00 ≤ a.toNat ∧ a.toNat ≤ 0xFE9F := by
  refine ⟨fun h => ?_, fun ⟨h1, h2⟩ => regionOf_spriteMemory _ a h1 h2⟩
  simp only [State.region, regionOf] at h
  split_ifs at h
  omega

theorem region_ioSink_iff {s : State} {a : Addr} : s.region a = .ioSink ↔ 0xFF00 ≤ a.toNat ∧ a.toNat ≤ 0xFF7F := by
  refine ⟨fun h => ?_, fun ⟨h1, h2⟩ => regionOf_ioSink _ a h1 h2⟩
  simp only [State.region, regionOf] at h
  split_ifs at h
  omega

/-- The overlay and the two ROM regions together are the addresses below 0x8000, whatever the overlay flag (R61). -/
theorem region_readOnly_iff {s : State} {a : Addr} :
    (s.region a = .boot ∨ s.region a = .rom0 ∨ s.region a = .rom1) ↔ a.toNat ≤ 0x7FFF := by
  refine ⟨fun h => ?_, region_below_0x8000⟩
  simp only [State.region, regionOf] at h
  split_ifs at h <;> simp only [or_self] at h <;> omega

/-- A byte read is unsupported in OAM locked to the port and in the I/O region (R121, R297). -/
theorem readByte_unsup_iff {s : State} {p : Port} {a : Addr} :
    (readByte s p a).2 = true ↔
      (s.region a = .spriteMemory ∧ s.oamLocked = true ∧ p = .portP) ∨ s.region a = .ioSink := by
  unfold readByte
  split
  case h_1 hr => simp [hr]
  case h_2 hr => simp [hr]
  case h_3 hio =>
    rw [or_iff_left hio]
    split
    next hl => exact iff_of_true rfl hl
    next hl => split <;> exact iff_of_false Bool.false_ne_true hl

/-- A byte write is unsupported in the overlay and ROM, in locked OAM and in the I/O region (R122, R297). -/
theorem writeUnsup_iff {s : State} {a : Addr} :
    s.writeUnsup a = true ↔
      (s.region a = .boot ∨ s.region a = .rom0 ∨ s.region a = .rom1) ∨
        (s.region a = .spriteMemory ∧ s.oamLocked = true) ∨ s.region a = .ioSink := by
  cases hr : s.region a <;> simp [State.writeUnsup, hr]

/-- Settles O24: the region of the address decides the bit, and the ranges of these regions are those of the table. -/
theorem unsupExactly : Obligations.UnsupExactly := by
  unfold Obligations.UnsupExactly
  intro s p a
  refine ⟨?read, ?write, rfl, rfl⟩
  case read => rw [readByte_unsup_iff, region_spriteMemory_iff, region_ioSink_iff, and_assoc]
  case write =>
    rw [writeUnsup_iff, region_readOnly_iff, region_spriteMemory_iff, region_ioSink_iff, and_assoc]

/-! Reset -/

/-- Reset is enabled in every state, a fatal one too (R291, R320). -/
theorem applyMove_reset (s : State) : applyMove .reset s = .next (hostReset s) := rfl

/-- The sprite records and their marks after reset (R320). -/
theorem resetWith_sprites (c : Config) (n : Fin 40) :
    (State.resetWith c).sprites.recs[n] = { y := 0, x := 0, tile := 0, flags := 0 } ∧
      (State.resetWith c).sprites.consumed[n] = false := by
  simp [State.resetWith]

theorem resetWith_fifo (c : Config) (k : Fin 16) : (State.resetWith c).pipe.fifo[k].valid = false := by
  simp [State.resetWith]

theorem resetWith_fb (c : Config) (l : Fin 144) (k : Nat) :
    linePixel (State.resetWith c).fb[l] k = { src := .bg, code := 0 } := by
  have hline : (State.resetWith c).fb[l] = [] := by simp [State.resetWith]
  rw [hline]
  rfl

/-- Settles O59: the block's part of the state after reset is that of resetWith, whose tables are empty or uniform. -/
theorem resetEvent : Obligations.ResetEvent := by
  unfold Obligations.ResetEvent
  intro s
  exact ⟨hostReset s, applyMove_reset s, rfl, rfl, rfl, rfl, rfl, rfl, rfl, rfl, rfl, fun _ _ => rfl,
    resetWith_sprites s.cfg, rfl, ⟨rfl, rfl, rfl, rfl, rfl, rfl, rfl, rfl⟩, resetWith_fifo s.cfg, fun _ => rfl,
    resetWith_fb s.cfg⟩

end Sys2Proof.Machine
end
